-- ==== Sys2Proof/Word.lean ====
section
/-! DEFINITION. The word types of the JMP: bytes, 16-bit fields and 32-bit offsets (spec/00_scope.md R8, R9;
spec/20_memory.md R60, R67). Every quantity is unsigned. -/

namespace Sys2Proof

/-- One byte of the Container or of the table store (R60). -/
abbrev Byte := BitVec 8

/-- A 16-bit field of a segment (R67), a marker written as one value (R90), or the STATUS word (R41). -/
abbrev Half := BitVec 16

/-- An offset or a length, `AW` = 32 bits wide (R8). -/
abbrev Word := BitVec 32

end Sys2Proof
end

