-- ==== Sys2Proof/Config.lean ====
section
/-! DEFINITION. The implementation parameters of spec/00_scope.md R7 (fixed by the source) and R8 (the spec's own
choices). `CONT_CAP`, which R8 leaves OPEN as a model argument, is the argument `cap` of the host commands
(Machine/HostCommands.lean); `Config.CapOk` is the range R8 gives it. -/

namespace Sys2Proof.Config

/-- `DIM_MAX`: the largest legal pixel width and height (R7). -/
def dimMax : Nat := 2040

/-- `BLOCK`: a block-scaled dimension is the pixel dimension divided by this (R7). -/
def block : Nat := 8

/-- `NCOMP`: the required component count (R7). -/
def ncomp : Byte := 3

/-- `SOF_PREC`: the required sample precision byte (R7). -/
def sofPrec : Byte := 8

/-- `SOF_MIN`: bytes that must remain, and least declared length, for SOF0 (R7). -/
def sofMin : Nat := 17

/-- `DRI_MIN`: bytes that must remain, and least declared length, for DRI (R7). -/
def driMin : Nat := 4

/-- `DQT_MIN`: bytes of the DQT length field, and least declared length (R7, R182, R183). -/
def dqtMin : Nat := 2

/-- The table id that is invalid: ids 0 to `QT_ID_MAX` = 14 are valid (R7). -/
def qtIdInvalid : Nat := 15

/-- `QT_SIZE_8`: table bytes when the precision nibble is 0 (R7). -/
def qtSize8 : Nat := 64

/-- `QT_SIZE_16`: table bytes when the precision nibble is not 0 (R7). -/
def qtSize16 : Nat := 128

/-- `SAMP_420`: first component sampling byte that gives type 0 (R7). -/
def samp420 : Byte := 0x21

/-- `SAMP_422`: first component sampling byte that gives type 1 (R7). -/
def samp422 : Byte := 0x22

/-- `SAMP_CHROMA`: required sampling byte of the other two components (R7). -/
def sampChroma : Byte := 0x11

/-- `TYPE_RESTART`: added to the type when a nonzero restart interval was found (R7). -/
def typeRestart : Byte := 64

/-- `SIZE_MAX`: the largest Container size LOAD accepts (R8, R15). -/
def sizeMax : Nat := 0xFFFF0000

/-- `QT_CAP`: bytes of the quantization table store (R8, R44). -/
def qtCap : Nat := 1920

/-- `SHIFT_FLOOR`: lower bound of the shift loop of SOF0's insertion pass. DESIGN CHOICE of the spec (R8, R167, D15),
unsafe if the hardware's floor is another; log entry 3. -/
def shiftFloor : Nat := 1

/-- `QFACTOR_RESET`: reset value of the quality factor (R8, R40). -/
def qfactorReset : Byte := 255

/-- The marker-start byte. PRESUMED by the spec from general knowledge (R90, G1), unsafe; log entry 1. -/
def markerStart : Byte := 0xFF

/-- The range R8 gives the capacity `CONT_CAP`. -/
abbrev CapOk (cap : Nat) : Prop := cap ≤ sizeMax

end Sys2Proof.Config
end

