-- ==== Sys2Proof/Syntax.lean ====
section
/-! DEFINITION. The instructions of the JMP: one constructor per row of spec/opcode_table.json, a marker operation each
(spec/00_scope.md R6, spec/30_encoding.md R92). The fields of a segment are memory operands, which an operation reads
from the Container when it runs; they are not part of the instruction word (log entry 11). -/

namespace Sys2Proof

/-- A marker operation, selected by the code byte after the marker-start byte (R90, R92). -/
inductive Instr where
  /-- Start-Of-Frame (baseline), code 0xC0, format F (R160). -/
  | sof0
  /-- Huffman-table marker, code 0xC4, format S (R144). -/
  | dht
  /-- Start-Of-Image, code 0xD8, format N (R145). -/
  | soi
  /-- End-Of-Image, code 0xD9, format N (R146). -/
  | eoi
  /-- Start-Of-Scan, code 0xDA, format C (R210). -/
  | sos
  /-- Define-Quantization-Table, code 0xDB, format Q (R180). -/
  | dqt
  /-- Define-Restart-Interval, code 0xDD, format R (R200). -/
  | dri
  /-- Application marker APP0 to APP15, code 0xE0 + n, format S (R143). -/
  | appn (n : BitVec 4)
  /-- Comment, code 0xFE, format S (R142). -/
  | com
  /-- Every other code, format N (R147). -/
  | other (code : Byte)
  deriving DecidableEq, Repr

end Sys2Proof
end

