-- ==== Sys2Proof/WellFormed.lean ====
section
/-! DEFINITION. Which instructions are well formed: `OTHER` carries only the 232 codes that select no named operation
(spec/30_encoding.md R92, R103). Every other constructor is well formed with every operand. -/

namespace Sys2Proof

/-- The code byte selects one of the nine named rows of the marker code table (R92): the 8 single codes or an APPn code. -/
def isNamedCode (c : Byte) : Bool :=
  c = 0xC0 || c = 0xC4 || c = 0xD8 || c = 0xD9 || c = 0xDA || c = 0xDB || c = 0xDD || c = 0xFE || c >>> 4 = 0xE

/-- Well-formedness of an instruction (R103): an `OTHER` holds a code outside the named rows. -/
def Instr.wf : Instr → Bool
  | .sof0 => true
  | .dht => true
  | .soi => true
  | .eoi => true
  | .sos => true
  | .dqt => true
  | .dri => true
  | .appn _ => true
  | .com => true
  | .other code => !isNamedCode code

end Sys2Proof
end

