-- ==== Sys2Proof/Decode.lean ====
section
/-! DEFINITION. Decoding a marker and encoding it again (spec/30_encoding.md R90, R92, R93 to R98, R107), and the reading
of an opcode-table word (`decodeTableWord`). The decoder is total: a byte stream that does not begin with a marker is
rejected by name; every code byte selects exactly one operation (R92, R103). -/

namespace Sys2Proof

/-- Why a byte stream is no marker. The marker search (R122) never presents such a stream. -/
inductive DecodeError where
  /-- Fewer than two bytes: there is no code byte (R123). -/
  | truncated
  /-- The first byte is not the marker-start byte (R90). -/
  | notMarkerStart (found : Byte)
  deriving DecidableEq, Repr

/-- The operation a code byte selects: "look the code up in the first nine rows; if absent, OTHER" (R92, R124). -/
def decodeCode (c : Byte) : Instr :=
  if c = 0xC0 then .sof0
  else if c = 0xC4 then .dht
  else if c = 0xD8 then .soi
  else if c = 0xD9 then .eoi
  else if c = 0xDA then .sos
  else if c = 0xDB then .dqt
  else if c = 0xDD then .dri
  else if c >>> 4 = 0xE then .appn (c.setWidth 4)
  else if c = 0xFE then .com
  else .other c

/-- Decodes the marker at the head of a byte stream: the operation, and the bytes after the code byte (R90). -/
def decode : List Byte → Except DecodeError (Instr × List Byte)
  | [] => .error .truncated
  | [b] => if b = Config.markerStart then .error .truncated else .error (.notMarkerStart b)
  | b :: c :: rest => if b = Config.markerStart then .ok (decodeCode c, rest) else .error (.notMarkerStart b)

/-- The code byte of an operation (R92). -/
def Instr.code : Instr → Byte
  | .sof0 => 0xC0
  | .dht => 0xC4
  | .soi => 0xD8
  | .eoi => 0xD9
  | .sos => 0xDA
  | .dqt => 0xDB
  | .dri => 0xDD
  | .appn n => 0xE0 ||| n.setWidth 8
  | .com => 0xFE
  | .other code => code

/-- The two marker bytes of an operation, the start byte at the lower address (R67, R90). -/
def encode (i : Instr) : List Byte := [Config.markerStart, i.code]

/-- A row of the marker code table (R107): a marker `m` selects the row when `m &&& mask = pattern`; `build` makes the
instruction from the code byte. -/
structure MarkerRow where
  mnemonic : String
  mask : Half
  pattern : Half
  build : Byte → Instr

/-- The rows of the marker code table in the order R107 tries them; OTHER is last. -/
def markerTable : List MarkerRow :=
  [ ⟨"SOF0", 0xFFFF, 0xFFC0, fun _ => .sof0⟩,
    ⟨"DHT", 0xFFFF, 0xFFC4, fun _ => .dht⟩,
    ⟨"SOI", 0xFFFF, 0xFFD8, fun _ => .soi⟩,
    ⟨"EOI", 0xFFFF, 0xFFD9, fun _ => .eoi⟩,
    ⟨"SOS", 0xFFFF, 0xFFDA, fun _ => .sos⟩,
    ⟨"DQT", 0xFFFF, 0xFFDB, fun _ => .dqt⟩,
    ⟨"DRI", 0xFFFF, 0xFFDD, fun _ => .dri⟩,
    ⟨"APPn", 0xFFF0, 0xFFE0, fun c => .appn (c.setWidth 4)⟩,
    ⟨"COM", 0xFFFF, 0xFFFE, fun _ => .com⟩,
    ⟨"OTHER", 0xFF00, 0xFF00, fun c => .other c⟩ ]

/-- The first row of the table that a 16-bit marker selects (R107). -/
def selectRow (m : Half) : Option MarkerRow := markerTable.find? fun r => m &&& r.mask = r.pattern

/-- A marker as one 16-bit value, `0xFF00 + code` (R90). -/
def markerWord (c : Byte) : Half := 0xFF00 + c.setWidth 16

/-- The bytes of an instruction given as opcode-table bits: the marker is one 16-bit word, bits 15:8 the start byte
(R107), stored with its more significant byte at the lower address (R67); a later word's bits count on from bit 16.
DEDUCED, unsafe; log entry 10. -/
def tableBytes (nbits w : Nat) : List Byte :=
  (List.range ((nbits + 15) / 16)).flatMap fun j =>
    [BitVec.ofNat 8 (w % 2 ^ nbits / 2 ^ (16 * j + 8)), BitVec.ofNat 8 (w % 2 ^ nbits / 2 ^ (16 * j))]

/-- The instruction the decoder reads from opcode-table bits (`nbits` of them, `w` their value); `none` where the
decoder refuses. -/
def decodeTableWord (nbits w : Nat) : Option Instr :=
  match decode (tableBytes nbits w) with
  | .ok (i, _) => some i
  | .error _ => none

end Sys2Proof
end

