-- ==== Sys2Proof/Machine/State.lean ====
section
/-! DEFINITION. The architectural state of the JMP, exactly the components of spec/10_state.md R20, its reset value
(R47), and the reasons a step can stop. The spec's own outcomes FAIL and FAULT are values of the register `state`, so
they are next states; a Lean `Fault` is an access to an address that does not exist. -/

namespace Sys2Proof.Machine

/-- A byte memory as (address, byte) pairs. An address that is not listed holds no value: an `unwritten` byte of the
table store (R44), a Container address that no LOAD filled (R45). DESIGN CHOICE, safe; log entry 4. -/
abbrev Memory := List Host.Cell

/-- The canonical form: addresses strictly rising. An unlisted address holds no value, so no listed byte can equal what
an unlisted address reads as. -/
abbrev Memory.wf (m : Memory) : Prop := m.Pairwise fun x y => x.1 < y.1

/-- The values of the register `state` (R21). -/
inductive ParseState where
  /-- No parse has been run on the current Container. -/
  | idle
  /-- A parse is in progress. -/
  | busy
  /-- The last parse succeeded. -/
  | ok
  /-- The last parse ended in the source's ParseFailure. -/
  | fail
  /-- The last parse ended in a contract violation or a case the source leaves undefined. -/
  | fault
  deriving DecidableEq, Repr

/-- The causes of spec/60_exceptions.md R261; their codes are `Cause.code` (log entry 13). -/
inductive Cause where
  /-- No FAIL or FAULT. -/
  | noCause
  /-- Finish step: no Start-Of-Frame. -/
  | noSof
  /-- Finish step: no Define-Quantization-Table. -/
  | noDqt
  /-- Finish step: a block count is zero. -/
  | zeroBlocks
  /-- SOF0: fewer than 17 bytes remain. -/
  | sofShortBuffer
  /-- SOF0: declared length below 17. -/
  | sofLength
  /-- SOF0: precision byte is not 8. -/
  | sofPrecision
  /-- SOF0: a dimension is 0 or above 2040. -/
  | sofDimension
  /-- SOF0: component count is not 3. -/
  | sofNcomp
  /-- SOF0: sampling byte of the first component. -/
  | sofSamplingFirst
  /-- SOF0: sampling byte of another component. -/
  | sofSamplingOther
  /-- SOF0: table ids of the other two components differ. -/
  | sofQtMismatch
  /-- SOF0 dispatched a second time. -/
  | sofRepeated
  /-- SOS: the length field is cut by the end of the buffer. -/
  | sosTruncated
  /-- SOS: the scan data would start beyond the end of the buffer. -/
  | scanStartBeyondEnd
  deriving DecidableEq, Repr

/-- The state of the JMP: the components of R20 and nothing else. -/
structure State where
  /-- The Container memory (R45). -/
  cont : Memory
  /-- Number of valid bytes in the Container (R23). -/
  size : Word
  /-- The `state` register (R21). -/
  state : ParseState
  /-- Reason of the last FAIL or FAULT (R22). -/
  cause : Cause
  /-- The scan offset, this block's program counter (R24). -/
  offset : Word
  /-- `sof_found` (R26). -/
  sofFound : Bool
  /-- `dqt_found` (R27). -/
  dqtFound : Bool
  /-- `sos_found` (R28). -/
  sosFound : Bool
  /-- `dri_found` (R29). -/
  driFound : Bool
  /-- `eoi_seen` (R30). -/
  eoiSeen : Bool
  /-- `width_blocks` (R31). -/
  widthBlocks : Byte
  /-- `height_blocks` (R32). -/
  heightBlocks : Byte
  /-- `type`, the chroma type (R33). -/
  type : Byte
  /-- `precision`, the size of the last table copied (R34). -/
  precision : BitVec 1
  /-- `restart_interval` (R35). -/
  restartInterval : Half
  /-- `header_len` (R36). -/
  headerLen : Word
  /-- `scan_off` (R37). -/
  scanOff : Word
  /-- `scan_len` (R38). -/
  scanLen : Word
  /-- `qfactor` (R40). -/
  qfactor : Byte
  /-- The quantization table store (R44). -/
  qt : Memory
  deriving DecidableEq, Repr

/-- Why the machine stops. Neither reason is the spec's FAULT, which is a next state; no run from reset reaches either
(R64, R65). -/
inductive Fault where
  /-- Raised by a read of the Container at an address at or above `size`, or at one no LOAD filled (R62, R63, R64).
  Safe: the spec's guards keep every rule away from it. -/
  | containerRead
  /-- Raised by a write of the table store at an index above 1919 (R65). Safe: no index the DQT operation forms is. -/
  | tableStoreWrite
  deriving DecidableEq, Repr

/-- Why an instruction has no meaning. Raised by no arm: every operation of the marker code table is modelled. -/
inductive Refusal where
  /-- An instruction that is not modelled yet, by its mnemonic; raised only by an arm of `exec`. Safe: nothing runs. -/
  | notModelled (mnemonic : String)
  deriving DecidableEq, Repr

/-- What a step or an operation answers. -/
abbrev Result := Host.Outcome State Fault Refusal

/-- The machine right after reset (R47, R300). The Container's contents are unspecified and unreadable there, so no
byte is listed (log entry 4). -/
def State.reset : State where
  cont := []
  size := 0
  state := .idle
  cause := .noCause
  offset := 0
  sofFound := false
  dqtFound := false
  sosFound := false
  driFound := false
  eoiSeen := false
  widthBlocks := 0
  heightBlocks := 0
  type := 0
  precision := 0
  restartInterval := 0
  headerLen := 0
  scanOff := 0
  scanLen := 0
  qfactor := Config.qfactorReset
  qt := []

end Sys2Proof.Machine
end

