-- ==== Sys2Proof/Machine/Ops.lean ====
section
/-! DEFINITION. The named operations over memory and registers: reading and writing a byte memory, the primitives of
spec/20_memory.md R62, R63, R65, the register updates the marker operations make, raising Fail and Fault
(spec/60_exceptions.md R263, R264), `ClearResults` (spec/10_state.md R48) and `Skip`
(spec/41_skip_and_noop_markers.md R141). -/

namespace Sys2Proof.Machine

/-- The byte a memory holds at an address, if it holds one. -/
def Memory.read : Memory → Nat → Option Byte
  | [], _ => none
  | (k, v) :: m, a => if k = a then some v else Memory.read m a

/-- Writes one byte, keeping the addresses strictly rising. -/
def Memory.write : Memory → Nat → Byte → Memory
  | [], a, v => [(a, v)]
  | (k, w) :: m, a, v =>
    if a < k then (a, v) :: (k, w) :: m
    else if a = k then (a, v) :: m
    else (k, w) :: Memory.write m a v

/-- Writes bytes at consecutive addresses from `a` up. -/
def Memory.writeBytes : Memory → Nat → List Byte → Memory
  | m, _, [] => m
  | m, a, b :: bs => Memory.writeBytes (m.write a b) (a + 1) bs

/-- The memory that holds the bytes at the addresses from `a` up and nothing else. -/
def Memory.ofBytesAt : Nat → List Byte → Memory
  | _, [] => []
  | a, b :: bs => (a, b) :: Memory.ofBytesAt (a + 1) bs

/-- The scan offset as a number: the `o` of the operation rules (R14). -/
def State.o (s : State) : Nat := s.offset.toNat

/-- `MemRead(CONT, a, 1)`, short form `U8(a)`: it requires `a < size` (R62). -/
def State.u8 (s : State) (a : Nat) : Option Byte :=
  if a < s.size.toNat then s.cont.read a else none

/-- Two bytes as a big-endian 16-bit field (R63, R99). -/
def be (hi lo : Byte) : Half := BitVec.ofNat 16 (hi.toNat * 256 + lo.toNat)

/-- `MemRead(CONT, a, 2)`, short form `BE16(a)`: the byte at the lower address is the more significant (R63). -/
def State.be16 (s : State) (a : Nat) : Option Half :=
  match s.u8 a, s.u8 (a + 1) with
  | some hi, some lo => some (be hi lo)
  | _, _ => none

/-- Reads `U8(a)` and goes on; a read the spec says does not exist stops the machine (R62, R64). -/
def withU8 (s : State) (a : Nat) (k : Byte → Result) : Result :=
  match s.u8 a with
  | some b => k b
  | none => .fault .containerRead

/-- Reads `BE16(a)` and goes on; a read the spec says does not exist stops the machine (R63, R64). -/
def withBE16 (s : State) (a : Nat) (k : Half → Result) : Result :=
  match s.be16 a with
  | some h => k h
  | none => .fault .containerRead

/-- Goes on from a next state; a stop stays a stop. -/
def andThen (r : Result) (k : State → Result) : Result :=
  match r with
  | .next s => k s
  | .fault f => .fault f
  | .refused f => .refused f

/-- `offset <- n` (R24). The register is 32 bits wide; no rule forms a value that does not fit (R15, log entry 14). -/
def State.setOffset (s : State) (n : Nat) : State := { s with offset := BitVec.ofNat 32 n }

/-- The table store with byte `i` written. -/
def State.setQtByte (s : State) (i : Nat) (v : Byte) : State := { s with qt := s.qt.write i v }

/-- `MemWrite(QT, i, 1, v)`: it requires `i <= 1919` (R65). -/
def writeQt (s : State) (i : Nat) (v : Byte) : Result :=
  if i < Config.qtCap then .next (s.setQtByte i v) else .fault .tableStoreWrite

/-- Copies `n` bytes from Container address `src` up to table store index `dst` up, byte for byte in address order
(R67, R185). -/
def copyToQt : Nat → State → Nat → Nat → Result
  | 0, s, _, _ => .next s
  | n + 1, s, dst, src =>
    withU8 s src fun b => andThen (writeQt s dst b) fun s' => copyToQt n s' (dst + 1) (src + 1)

/-- What ending a parse in FAIL or FAULT does: `state` and `cause` are written, nothing is saved, no register is
cleared (R269). There is no return from it: only RESET, LOAD and START leave these states (R271). -/
def State.endParse (s : State) (outcome : ParseState) (c : Cause) : State := { s with state := outcome, cause := c }

/-- `raise Fail(c)` (R263). -/
def State.raiseFail (s : State) (c : Cause) : State := s.endParse .fail c

/-- `raise Fault(c)` (R264). -/
def State.raiseFault (s : State) (c : Cause) : State := s.endParse .fault c

/-- `precision <- p` (R187). -/
def State.setPrecision (s : State) (p : BitVec 1) : State := { s with precision := p }

/-- `width_blocks <- w; height_blocks <- h` (R165). -/
def State.setBlocks (s : State) (w h : Byte) : State := { s with widthBlocks := w, heightBlocks := h }

/-- `type <- t` (R168). -/
def State.setType (s : State) (t : Byte) : State := { s with type := t }

/-- `header_len <- n` (R213). -/
def State.setHeaderLen (s : State) (n : Nat) : State := { s with headerLen := BitVec.ofNat 32 n }

/-- `ClearResults()`, used by RESET, LOAD and START (R48). It does not touch `cont`, `size`, `qfactor` or `state`. -/
def State.clearResults (s : State) : State :=
  { s with
    cause := .noCause, offset := 0
    sofFound := false, dqtFound := false, sosFound := false, driFound := false, eoiSeen := false
    widthBlocks := 0, heightBlocks := 0, type := 0, precision := 0, restartInterval := 0
    headerLen := 0, scanOff := 0, scanLen := 0, qt := [] }

/-- `Skip(o)`, shared by COM, APPn and DHT (R141): past the segment by its declared length, obeyed literally; to the
end of the buffer where the length field is cut. Never a failure. -/
def skip (s : State) : Result :=
  if s.size.toNat < s.o + 2 then .next (s.setOffset s.size.toNat)
  else withBE16 s s.o fun len => .next (s.setOffset (s.o + len.toNat))

end Sys2Proof.Machine
end

