-- ==== Sys2Proof/Machine/Operands.lean ====
section
/-! DEFINITION. The operand forms: the fields of format F (SOF0), the entry header byte of format Q (DQT) and the block
scaling (spec/30_encoding.md R95, R96, R99 to R101). The length fields of formats S, R and C and the interval of format
R are single `BE16` reads, made by the operations themselves. -/

namespace Sys2Proof.Machine

/-- A component entry of SOF0: `(id, samp, qt)` (R95, R43). -/
structure Component where
  id : Byte
  samp : Byte
  qt : Byte
  deriving DecidableEq, Repr

/-- The 17 bytes of format F (R95). -/
structure SofSegment where
  len : Half
  prec : Byte
  height : Half
  width : Half
  ncomp : Byte
  c0 : Component
  c1 : Component
  c2 : Component
  deriving DecidableEq, Repr

/-- Reads the component entry at an address (R95). -/
def State.component (s : State) (a : Nat) : Option Component :=
  match s.u8 a, s.u8 (a + 1), s.u8 (a + 2) with
  | some id, some samp, some qt => some ⟨id, samp, qt⟩
  | _, _, _ => none

/-- Reads the fields of format F at `o`: 17 bytes, whatever `L` says; height stands at the lower address (R95, R165). -/
def State.sofSegment (s : State) (o : Nat) : Option SofSegment :=
  match s.be16 o, s.u8 (o + 2), s.be16 (o + 3), s.be16 (o + 5), s.u8 (o + 7) with
  | some len, some prec, some height, some width, some ncomp =>
    match s.component (o + 8), s.component (o + 11), s.component (o + 14) with
    | some c0, some c1, some c2 => some ⟨len, prec, height, width, ncomp, c0, c1, c2⟩
    | _, _, _ => none
  | _, _, _, _, _ => none

/-- Block scaling: integer division by 8 (R101). -/
def blocks (dim : Half) : Byte := BitVec.ofNat 8 (dim.toNat / Config.block)

/-- A dimension SOF0 accepts: 1 to 2040 (R165). -/
def dimensionOk (dim : Half) : Bool := decide (dim.toNat ≠ 0 ∧ dim.toNat ≤ Config.dimMax)

/-- The table id of a DQT entry header byte: its low nibble (R100). -/
def tableId (b : Byte) : Nat := b.toNat % 16

/-- The precision nibble of a DQT entry header byte: its high nibble (R100). -/
def tablePrec (b : Byte) : Nat := b.toNat / 16

/-- The table size a header byte selects: 64 where the precision nibble is 0, else 128 (R96, R185). -/
def tableSize (b : Byte) : Nat := if tablePrec b = 0 then Config.qtSize8 else Config.qtSize16

/-- The Header flag a header byte gives: 0 for a 64-byte table, 1 for a 128-byte table (R187). -/
def precisionFlag (b : Byte) : BitVec 1 := if tablePrec b = 0 then 0 else 1

/-- The clamp of DQT: the declared length, cut to what remains of the buffer (R184). -/
def clampLen (o len size : Nat) : Nat := if size < o + len then size - o else len

end Sys2Proof.Machine
end

