-- ==== Sys2Proof/Machine/Flags.lean ====
section
/-! DEFINITION. The flags (spec/10_state.md R26 to R30), their computations, the encodings of `state` and `cause`
(R21, spec/60_exceptions.md R261) and the STATUS word (R41). -/

namespace Sys2Proof.Machine

/-- `sof_found <- 1` (R169). -/
def State.setSofFound (s : State) : State := { s with sofFound := true }

/-- `dqt_found <- 1` (R181). -/
def State.setDqtFound (s : State) : State := { s with dqtFound := true }

/-- `sos_found <- 1` (R213). -/
def State.setSosFound (s : State) : State := { s with sosFound := true }

/-- `eoi_seen <- 1` (R146). -/
def State.setEoiSeen (s : State) : State := { s with eoiSeen := true }

/-- `dri_found` for an interval: 1 exactly when it is not 0 (R203). -/
def driFlag (value : Half) : Bool := decide (value ≠ 0)

/-- `restart_interval <- value; dri_found <- (value != 0)`, the one writer of either (R203, R204). -/
def State.setRestart (s : State) (value : Half) : State :=
  { s with restartInterval := value, driFound := driFlag value }

/-- The encoding of `state` (R21). -/
def ParseState.code : ParseState → Nat
  | .idle => 0
  | .busy => 1
  | .ok => 2
  | .fail => 3
  | .fault => 4

/-- The code of a cause (R261). -/
def Cause.code : Cause → Byte
  | .noCause => 0x00
  | .noSof => 0x10
  | .noDqt => 0x11
  | .zeroBlocks => 0x12
  | .sofShortBuffer => 0x13
  | .sofLength => 0x14
  | .sofPrecision => 0x15
  | .sofDimension => 0x16
  | .sofNcomp => 0x17
  | .sofSamplingFirst => 0x18
  | .sofSamplingOther => 0x19
  | .sofQtMismatch => 0x1A
  | .sofRepeated => 0x20
  | .sosTruncated => 0x21
  | .scanStartBeyondEnd => 0x22

/-- The class of a cause: the value of `state` it is recorded with, or none for NONE (R261). -/
def Cause.outcome : Cause → Option ParseState
  | .noCause => none
  | .noSof => some .fail
  | .noDqt => some .fail
  | .zeroBlocks => some .fail
  | .sofShortBuffer => some .fail
  | .sofLength => some .fail
  | .sofPrecision => some .fail
  | .sofDimension => some .fail
  | .sofNcomp => some .fail
  | .sofSamplingFirst => some .fail
  | .sofSamplingOther => some .fail
  | .sofQtMismatch => some .fail
  | .sofRepeated => some .fault
  | .sosTruncated => some .fault
  | .scanStartBeyondEnd => some .fault

/-- The STATUS word: STATE in bits 2:0, SOF, DQT, SOS, DRI, EOI in bits 3 to 7, CAUSE in bits 15:8. While BUSY every
field but STATE reads as 0 (R41). -/
def State.statusWord (s : State) : Half :=
  match s.state with
  | .busy => BitVec.ofNat 16 ParseState.busy.code
  | st => s.cause.code ++ (BitVec.ofBool s.eoiSeen ++ (BitVec.ofBool s.driFound ++ (BitVec.ofBool s.sosFound ++
      (BitVec.ofBool s.dqtFound ++ (BitVec.ofBool s.sofFound ++ BitVec.ofNat 3 st.code)))))

end Sys2Proof.Machine
end

