-- ==== Sys2Proof/Machine/Dqt.lean ====
section
/-! DEFINITION. The Define-Quantization-Table operation DQT (spec/43_dqt.md R180 to R190). It raises nothing: malformed
trailing data is silently truncated. -/

namespace Sys2Proof.Machine

/-- The table iteration: entries from `p` on while `rem` bytes of the clamped segment are left. It ends at id 15 or
where the header byte and its table do not fit; tables already copied stay (R185, R187). The first argument bounds the
number of entries; every entry consumes at least 65 bytes, so `rem` itself bounds it. -/
def dqtTables : Nat → State → Nat → Nat → Result
  | 0, s, _, _ => .next s
  | fuel + 1, s, p, rem =>
    if rem = 0 then .next s
    else withU8 s p fun b =>
      if tableId b = Config.qtIdInvalid then .next s
      else if rem < tableSize b + 1 then .next s
      else andThen (copyToQt (tableSize b) s (tableId b * tableSize b) (p + 1)) fun s' =>
        dqtTables fuel (s'.setPrecision (precisionFlag b)) (p + tableSize b + 1) (rem - (tableSize b + 1))

/-- Steps 4 to 6 for a length of at least 2: the clamp (R184), the iteration (R185), and `offset` to the end of the
clamped segment, however the iteration ended (R186). -/
def dqtSegment (s : State) (len : Nat) : Result :=
  let l := clampLen s.o len s.size.toNat
  andThen (dqtTables (l - 2) s (s.o + 2) (l - 2)) fun s' => .next (s'.setOffset (s.o + l))

/-- DQT: `dqt_found <- 1` first and always (R181); a cut length field (R182) or a length below 2 (R183) ends the scan. -/
def execDqt (s : State) : Result :=
  let s1 := s.setDqtFound
  if s.size.toNat < s.o + Config.dqtMin then .next (s1.setOffset s.size.toNat)
  else withBE16 s s.o fun len =>
    if len.toNat < Config.dqtMin then .next (s1.setOffset s.size.toNat) else dqtSegment s1 len.toNat

end Sys2Proof.Machine
end

