-- ==== Sys2Proof/Machine/Dri.lean ====
section
/-! DEFINITION. The Define-Restart-Interval operation DRI (spec/44_dri.md R200 to R207). -/

namespace Sys2Proof.Machine

/-- DRI: ignored with `offset` at `o` where its bytes are cut (R201) or its length is below 4 (R202); else the interval,
its flag, and past the segment by the declared length (R203). -/
def execDri (s : State) : Result :=
  if s.size.toNat < s.o + Config.driMin then .next s
  else withBE16 s s.o fun len =>
    if len.toNat < Config.driMin then .next s
    else withBE16 s (s.o + 2) fun value => .next ((s.setRestart value).setOffset (s.o + len.toNat))

end Sys2Proof.Machine
end

