-- ==== Sys2Proof/Machine/Skipped.lean ====
section
/-! DEFINITION. The skipped markers COM, APPn and DHT and the markers without a segment SOI, EOI and OTHER
(spec/41_skip_and_noop_markers.md R140 to R147). An operation starts with `offset` = `o`, the address after its code
byte (R124, R140). -/

namespace Sys2Proof.Machine

/-- DHT: `Skip(o)`; the Huffman tables are not examined (R144). -/
def execDht (s : State) : Result := skip s

/-- APPn: `Skip(o)`, alike for all sixteen codes; `n` has no effect (R143). -/
def execAppn (_n : BitVec 4) (s : State) : Result := skip s

/-- COM: `Skip(o)` (R142). -/
def execCom (s : State) : Result := skip s

/-- SOI: nothing; `offset` stays at `o` (R145). -/
def execSoi (s : State) : Result := .next s

/-- EOI: `eoi_seen <- 1`; `offset` stays at `o` and scanning continues (R146). -/
def execEoi (s : State) : Result := .next s.setEoiSeen

/-- OTHER: nothing; `offset` stays at `o`, and no segment is skipped (R147). -/
def execOther (_code : Byte) (s : State) : Result := .next s

end Sys2Proof.Machine
end

