-- ==== Sys2Proof/Machine/Sof.lean ====
section
/-! DEFINITION. The Start-Of-Frame (baseline) operation SOF0 (spec/42_sof.md R160 to R173), its steps in the order of
the rules: the first check that fails ends the operation and the parse (R160, R266). -/

namespace Sys2Proof.Machine

/-- Where the insertion pass puts an element with key `id`: from the fill count `j` down to `floor`, past every entry
whose id is not below `id` (R167). `info` is the filled prefix of the scratch. -/
def insertPos (floor : Nat) (info : List Component) (id : Byte) : Nat → Nat
  | 0 => 0
  | j + 1 =>
    if j + 1 > floor then
      match info[j]? with
      | some e => if e.id < id then j + 1 else insertPos floor info id j
      | none => j + 1
    else j + 1

/-- One round of the insertion pass: the entries from the found place on move up by one (R167). -/
def insertComponent (floor : Nat) (info : List Component) (elem : Component) : List Component :=
  let j := insertPos floor info elem.id info.length
  info.take j ++ elem :: info.drop j

theorem insertComponent_length (floor : Nat) (info : List Component) (elem : Component) :
    (insertComponent floor info elem).length = info.length + 1 := by
  simp only [insertComponent, List.length_append, List.length_cons, List.length_take, List.length_drop]
  omega

/-- The insertion pass over the three entries in file order, from an empty scratch (R167, R43). -/
def insertionPass (floor : Nat) (c0 c1 c2 : Component) : List Component :=
  insertComponent floor (insertComponent floor (insertComponent floor [] c0) c1) c2

theorem insertionPass_length (floor : Nat) (c0 c1 c2 : Component) :
    (insertionPass floor c0 c1 c2).length = 3 := by
  simp [insertionPass, insertComponent_length]

/-- The type the first component's sampling byte selects, if any (R168). -/
def samplingType (samp : Byte) : Option Byte :=
  if samp = Config.samp420 then some 0 else if samp = Config.samp422 then some 1 else none

/-- Step 8, the checks on the other two components (R168), and step 9, the commit (R169). `type` is already written. -/
def sofCommit (s : State) (len : Nat) (i1 i2 : Component) : State :=
  if i1.samp ≠ Config.sampChroma ∨ i2.samp ≠ Config.sampChroma then s.raiseFail .sofSamplingOther
  else if i1.qt ≠ i2.qt then s.raiseFail .sofQtMismatch
  else s.setSofFound.setOffset (s.o + len)

/-- Steps 7 and 8: the insertion pass, then the first component's sampling byte (R167, R168). -/
def sofComponents (floor : Nat) (s : State) (seg : SofSegment) : State :=
  let info := insertionPass floor seg.c0 seg.c1 seg.c2
  have h : info.length = 3 := insertionPass_length floor seg.c0 seg.c1 seg.c2
  match samplingType info[0].samp with
  | none => s.raiseFail .sofSamplingFirst
  | some t => sofCommit (s.setType t) seg.len.toNat info[1] info[2]

/-- Steps 3 to 6: length, precision, dimensions (stored before the component count is examined), component count
(R163 to R166). -/
def sofChecks (floor : Nat) (s : State) (seg : SofSegment) : State :=
  if seg.len.toNat < Config.sofMin then s.raiseFail .sofLength
  else if seg.prec ≠ Config.sofPrec then s.raiseFail .sofPrecision
  else if !(dimensionOk seg.height && dimensionOk seg.width) then s.raiseFail .sofDimension
  else
    let s' := s.setBlocks (blocks seg.width) (blocks seg.height)
    if seg.ncomp ≠ Config.ncomp then s'.raiseFail .sofNcomp else sofComponents floor s' seg

/-- SOF0 with a given floor of the insertion pass: the repeat check (R161), the buffer check (R162), the 17 bytes
(R95; log entry 12), then the checks of R163 to R169. -/
def sof0 (floor : Nat) (s : State) : Result :=
  if s.sofFound then .next (s.raiseFault .sofRepeated)
  else if s.size.toNat < s.o + Config.sofMin then .next (s.raiseFail .sofShortBuffer)
  else
    match s.sofSegment s.o with
    | some seg => .next (sofChecks floor s seg)
    | none => .fault .containerRead

/-- SOF0, with `SHIFT_FLOOR` as the insertion pass's floor (R160, R167). -/
def execSof0 (s : State) : Result := sof0 Config.shiftFloor s

end Sys2Proof.Machine
end

