-- ==== Sys2Proof/Machine/Sos.lean ====
section
/-! DEFINITION. The Start-Of-Scan operation SOS and the finish step (spec/45_sos_and_finish.md R210 to R222). -/

namespace Sys2Proof.Machine

/-- SOS: Fault where the length field is cut (R211) or the scan data would start beyond the buffer (R212); else
`header_len <- o + L; sos_found <- 1`, with `offset` left at `o` (R213). -/
def execSos (s : State) : Result :=
  if s.size.toNat < s.o + 2 then .next (s.raiseFault .sosTruncated)
  else withBE16 s s.o fun len =>
    if s.size.toNat < s.o + len.toNat then .next (s.raiseFault .scanStartBeyondEnd)
    else .next (s.setHeaderLen (s.o + len.toNat)).setSosFound

/-- Success of a parse: the scan-data view, 64 added to `type` where a nonzero restart interval was found, and
`state <- OK` (R216). -/
def State.succeed (s : State) : State :=
  { s with
    scanOff := s.headerLen
    scanLen := BitVec.ofNat 32 (s.size.toNat - s.headerLen.toNat)
    type := if s.driFound then s.type + Config.typeRestart else s.type
    state := .ok }

/-- The finish step: the three tests in their order, else success (R215, R216). -/
def finishStep (s : State) : State :=
  if s.sofFound = false then s.raiseFail .noSof
  else if s.dqtFound = false then s.raiseFail .noDqt
  else if s.widthBlocks = 0 ∨ s.heightBlocks = 0 then s.raiseFail .zeroBlocks
  else s.succeed

end Sys2Proof.Machine
end

