-- ==== Sys2Proof/Machine/Dispatch.lean ====
section
/-! DEFINITION. Dispatch: one arm per marker operation (spec/40_scan_loop.md R124). The state an operation gets has
`offset` = `o`, the address after the code byte. -/

namespace Sys2Proof.Machine

def exec (i : Instr) (s : State) : Host.Outcome State Fault Refusal :=
  match i with
  | .sof0 => Sys2Proof.Machine.execSof0 s
  | .dht => Sys2Proof.Machine.execDht s
  | .soi => Sys2Proof.Machine.execSoi s
  | .eoi => Sys2Proof.Machine.execEoi s
  | .sos => Sys2Proof.Machine.execSos s
  | .dqt => Sys2Proof.Machine.execDqt s
  | .dri => Sys2Proof.Machine.execDri s
  | .appn n => Sys2Proof.Machine.execAppn n s
  | .com => Sys2Proof.Machine.execCom s
  | .other code => Sys2Proof.Machine.execOther code s

end Sys2Proof.Machine
end

