-- ==== Sys2Proof/Machine/Search.lean ====
section
/-! DEFINITION. The marker search, which fetches the next marker (spec/40_scan_loop.md R122, R123), and the placing of
an instruction where it will be fetched. -/

namespace Sys2Proof.Machine

/-- What a marker search finds. -/
inductive Fetched where
  /-- A marker: its marker-start byte stands at address `i`, `code` is the byte after it (R122). -/
  | marker (i : Nat) (code : Byte)
  /-- No marker-start byte, or one without a code byte after it (R123). -/
  | exhausted
  /-- A byte below `size` that no LOAD filled; not in a state that a run reaches. -/
  | unreadable
  deriving DecidableEq, Repr

/-- Looks at the `n` addresses from `a` up for the marker-start byte; `n` is what remains below `size` (R122). -/
def searchFrom (s : State) : Nat → Nat → Fetched
  | 0, _ => .exhausted
  | n + 1, a =>
    match s.u8 a with
    | none => .unreadable
    | some b =>
      if b = Config.markerStart then
        if s.size.toNat ≤ a + 1 then .exhausted
        else
          match s.u8 (a + 1) with
          | some code => .marker a code
          | none => .unreadable
      else searchFrom s n (a + 1)

/-- The marker search of a marker step, from `offset` on (R122). -/
def State.fetch (s : State) : Fetched := searchFrom s (s.size.toNat - s.o) s.o

/-- The loop condition of R121, for a parse in progress: a marker step is next. -/
def State.scanning (s : State) : Bool := !s.sosFound && decide (s.offset < s.size)

/-- Bytes of the longest fixed form: two marker bytes and the 17 bytes of format F (R95). -/
def longestForm : Nat := 19

/-- A parse in progress at `offset`, with `bytes` in the Container from there on, and at least `longestForm` bytes
(zeros after `bytes`) below `size`. It stands for the host's LOAD and START (log entry 9). -/
def State.placed (s : State) (bytes : List Byte) : State :=
  let all := bytes ++ List.replicate (longestForm - bytes.length) 0
  { s with
    cont := s.cont.writeBytes s.o all
    size := BitVec.ofNat 32 (max s.size.toNat (s.o + all.length))
    state := .busy
    sosFound := false }

end Sys2Proof.Machine
end

