-- ==== Sys2Proof/Machine/Scan.lean ====
section
/-! DEFINITION. A marker step: the marker search and the operation its code selects (spec/40_scan_loop.md R122 to R124). -/

namespace Sys2Proof.Machine

/-- A marker step: the search, then the operation its code selects, at the address after the code byte (R122, R124);
`offset <- size` and no operation where the bytes run out (R123). -/
def markerStep (s : State) : Result :=
  match s.fetch with
  | .marker i code => exec (decodeCode code) (s.setOffset (i + 2))
  | .exhausted => .next (s.setOffset s.size.toNat)
  | .unreadable => .fault .containerRead

/-- A step of a parse in progress: a marker step, or the finish step where the loop has ended (R121, R215). -/
def busyStep (s : State) : Result := if s.scanning then markerStep s else .next (finishStep s)

end Sys2Proof.Machine
end

