-- ==== Sys2Proof/Machine/Step.lean ====
section
/-! DEFINITION. One step of the parser (spec/40_scan_loop.md R120) and the placing of an opcode-table word. -/

namespace Sys2Proof.Machine

/-- One step. While BUSY: a marker step or the finish step, by the loop condition (R120, R121). In every other state
the parser has no step (R120): the state stays. DESIGN CHOICE, safe; log entry 7. -/
def step (s : State) : Host.Outcome State Fault Refusal :=
  match s.state with
  | .busy => busyStep s
  | .idle => .next s
  | .ok => .next s
  | .fail => .next s
  | .fault => .next s

/-- `s` with the instruction of an opcode-table word where the next marker step fetches, and with a parse in progress
(log entries 9, 10). -/
def State.withFetchWord (s : State) (nbits w : Nat) : State := s.placed (tableBytes nbits w)

end Sys2Proof.Machine
end

