-- ==== Sys2Proof/Machine/HostCommands.lean ====
section
/-! DEFINITION. The host commands (spec/46_host_commands.md R230 to R245), one definition each. A command answers the
state after it and what it returns, or `none` where it is refused: "no component of the state changes and no data is
returned" (R231). `cap` is `CONT_CAP`, which R8 leaves OPEN as a model argument (log entry 2). -/

namespace Sys2Proof.Machine

/-- The commands of R230. LOAD's argument `n` is the length of its list of bytes. -/
inductive HostCmd where
  | reset
  | load (bytes : List Byte)
  | start
  | setq (v : Byte)
  | rdStatus
  | rdSize
  | rdQfactor
  | rdOffset
  | rdWidthBlocks
  | rdHeightBlocks
  | rdType
  | rdPrecision
  | rdRestartInterval
  | rdHeaderLen
  | rdScanOff
  | rdScanLen
  | rdQt (i : Nat)
  | rdScan (k : Nat)
  deriving DecidableEq, Repr

/-- What an accepted command returns, with its width (R230). -/
inductive Reply where
  | nothing
  | bits1 (v : BitVec 1)
  | bits8 (v : Byte)
  | bits16 (v : Half)
  | bits32 (v : Word)
  deriving DecidableEq, Repr

/-- What a command answers: `none` where it is refused (R231). -/
abbrev CmdResult := Option (State × Reply)

/-- RESET, accepted in every state: `ClearResults(); size <- 0; qfactor <- 255; state <- IDLE` (R233). The Container's
contents become irrelevant: no byte stays listed (R47; log entry 4). -/
def hostReset (s : State) : CmdResult :=
  some ({ s.clearResults with cont := [], size := 0, qfactor := Config.qfactorReset, state := .idle }, .nothing)

/-- LOAD: the bytes become the Container, its results are discarded, `state <- IDLE` (R234; "LOAD replaces `cont` and
`size`", R301). Refused while BUSY and above the capacity. -/
def hostLoad (cap : Nat) (bytes : List Byte) (s : State) : CmdResult :=
  if s.state ≠ .busy ∧ bytes.length ≤ cap then
    some ({ s.clearResults with
      cont := Memory.ofBytesAt 0 bytes, size := BitVec.ofNat 32 bytes.length, state := .idle }, .nothing)
  else none

/-- START: `ClearResults(); state <- BUSY`; refused while BUSY (R235). -/
def hostStart (s : State) : CmdResult :=
  if s.state ≠ .busy then some ({ s.clearResults with state := .busy }, .nothing) else none

/-- SETQ: `qfactor <- v` and nothing else; refused while BUSY (R236). -/
def hostSetq (v : Byte) (s : State) : CmdResult :=
  if s.state ≠ .busy then some ({ s with qfactor := v }, .nothing) else none

/-- RD_STATUS, always accepted (R237). -/
def hostRdStatus (s : State) : CmdResult := some (s, .bits16 s.statusWord)

/-- RD_SIZE, always accepted (R238). -/
def hostRdSize (s : State) : CmdResult := some (s, .bits32 s.size)

/-- RD_QFACTOR, always accepted (R238). -/
def hostRdQfactor (s : State) : CmdResult := some (s, .bits8 s.qfactor)

/-- RD_OFFSET, accepted in OK, FAIL and FAULT (R239). -/
def hostRdOffset (s : State) : CmdResult :=
  if s.state = .ok ∨ s.state = .fail ∨ s.state = .fault then some (s, .bits32 s.offset) else none

/-- A result read: accepted only in OK, no side effect (R241). -/
def readResult (s : State) (r : Reply) : CmdResult := if s.state = .ok then some (s, r) else none

/-- RD_WIDTH_BLOCKS (R241). -/
def hostRdWidthBlocks (s : State) : CmdResult := readResult s (.bits8 s.widthBlocks)

/-- RD_HEIGHT_BLOCKS (R241). -/
def hostRdHeightBlocks (s : State) : CmdResult := readResult s (.bits8 s.heightBlocks)

/-- RD_TYPE (R241). -/
def hostRdType (s : State) : CmdResult := readResult s (.bits8 s.type)

/-- RD_PRECISION (R241). -/
def hostRdPrecision (s : State) : CmdResult := readResult s (.bits1 s.precision)

/-- RD_RESTART_INTERVAL (R241). -/
def hostRdRestartInterval (s : State) : CmdResult := readResult s (.bits16 s.restartInterval)

/-- RD_HEADER_LEN (R241). -/
def hostRdHeaderLen (s : State) : CmdResult := readResult s (.bits32 s.headerLen)

/-- RD_SCAN_OFF (R241). -/
def hostRdScanOff (s : State) : CmdResult := readResult s (.bits32 s.scanOff)

/-- RD_SCAN_LEN (R241). -/
def hostRdScanLen (s : State) : CmdResult := readResult s (.bits32 s.scanLen)

/-- RD_QT: accepted in OK for an index up to 1919 whose byte is written (R240). -/
def hostRdQt (i : Nat) (s : State) : CmdResult :=
  if s.state = .ok ∧ i < Config.qtCap then (s.qt.read i).map fun v => (s, .bits8 v) else none

/-- RD_SCAN: accepted in OK for an index inside the view; reads the Container in place (R242). -/
def hostRdScan (k : Nat) (s : State) : CmdResult :=
  if s.state = .ok ∧ k < s.scanLen.toNat then (s.u8 (s.scanOff.toNat + k)).map fun v => (s, .bits8 v) else none

/-- A command of the host. -/
def hostCommand (cap : Nat) (c : HostCmd) (s : State) : CmdResult :=
  match c with
  | .reset => hostReset s
  | .load bytes => hostLoad cap bytes s
  | .start => hostStart s
  | .setq v => hostSetq v s
  | .rdStatus => hostRdStatus s
  | .rdSize => hostRdSize s
  | .rdQfactor => hostRdQfactor s
  | .rdOffset => hostRdOffset s
  | .rdWidthBlocks => hostRdWidthBlocks s
  | .rdHeightBlocks => hostRdHeightBlocks s
  | .rdType => hostRdType s
  | .rdPrecision => hostRdPrecision s
  | .rdRestartInterval => hostRdRestartInterval s
  | .rdHeaderLen => hostRdHeaderLen s
  | .rdScanOff => hostRdScanOff s
  | .rdScanLen => hostRdScanLen s
  | .rdQt i => hostRdQt i s
  | .rdScan k => hostRdScan k s

/-- The state after a command: a refused one changes nothing (R231). -/
def hostApply (cap : Nat) (c : HostCmd) (s : State) : State :=
  match hostCommand cap c s with
  | some (s', _) => s'
  | none => s

/-- What a command returns: nothing where it is refused (R231). -/
def hostReply (cap : Nat) (c : HostCmd) (s : State) : Option Reply := (hostCommand cap c s).map Prod.snd

/-- The number of the host register a command reads or writes, if it is one of HR0 to HR11 (R42). -/
def HostCmd.registerNumber : HostCmd → Option Nat
  | .reset => none
  | .load _ => none
  | .start => none
  | .setq _ => some 8
  | .rdStatus => some 0
  | .rdSize => some 1
  | .rdQfactor => some 8
  | .rdOffset => some 2
  | .rdWidthBlocks => some 3
  | .rdHeightBlocks => some 4
  | .rdType => some 5
  | .rdPrecision => some 6
  | .rdRestartInterval => some 7
  | .rdHeaderLen => some 9
  | .rdScanOff => some 10
  | .rdScanLen => some 11
  | .rdQt _ => none
  | .rdScan _ => none

end Sys2Proof.Machine
end

