-- ==== Sys2Proof/Machine/System.lean ====
section
/-! DEFINITION. The two agents together (spec/00_scope.md R18, spec/20_memory.md R72): a run is a list of turns, each a
step of the parser or a command of the host, in any order. The list is plain data outside State (R20; log entry 8). -/

namespace Sys2Proof.Machine

/-- One turn: which agent acts (R18). -/
inductive Event where
  /-- One step of the parser; outside BUSY it changes nothing (R120). -/
  | parser
  /-- One command of the host (R230). -/
  | host (c : HostCmd)
  deriving DecidableEq, Repr

/-- The state after one turn. -/
def turn (cap : Nat) (e : Event) (s : State) : Result :=
  match e with
  | .parser => step s
  | .host c => .next (hostApply cap c s)

/-- The state after a list of turns, the first turn first; it stops at the first stop. -/
def turns (cap : Nat) : List Event → State → Result
  | [], s => .next s
  | e :: es, s => andThen (turn cap e s) (turns cap es)

/-- `k` steps of the parser alone. -/
def parserRun : Nat → State → Result
  | 0, s => .next s
  | k + 1, s => andThen (step s) (parserRun k)

/-- The most steps a parse of the loaded Container takes: `size / 2 + 1` marker steps and the finish step (R125). -/
def State.parseBound (s : State) : Nat := s.size.toNat / 2 + 2

/-- A whole parse as one function of the state: START, then the parser to its end (R126, R232, R243). -/
def parseAll (s : State) : Result :=
  match hostStart s with
  | some (s', _) => parserRun s'.parseBound s'
  | none => .next s

end Sys2Proof.Machine
end

