-- ==== Sys2Proof/Safety.lean ====
section
/-! DEFINITION. What counts as a good state and a good run, in the terms the statements use: the readable Container, the
invariant of the machine (spec/10_state.md, spec/45_sos_and_finish.md R219), and list readings of SOF0's checks and DQT's
entries, against which the operations are stated. -/

namespace Sys2Proof.Machine

/-- The Container holds a byte at exactly the addresses below `size` (R23, R45). -/
abbrev State.ContFull (s : State) : Prop := s.cont.map Prod.fst = List.range s.size.toNat

/-- Every byte below `size` can be read (R64). -/
def State.Readable (s : State) : Prop := ∀ a, a < s.size.toNat → (s.u8 a).isSome

/-- `size <= SIZE_MAX`, under which no rule wraps (R15). -/
abbrev State.SizeOk (s : State) : Prop := s.size.toNat ≤ Config.sizeMax

/-- The table store is in canonical form and holds no index above 1919 (R44). -/
abbrev State.QtOk (s : State) : Prop := s.qt.wf ∧ ∀ c ∈ s.qt, c.1 < Config.qtCap

/-- The class of `cause` is the value of `state`: NONE outside FAIL and FAULT (R22, R261). -/
abbrev State.CauseOk (s : State) : Prop :=
  s.cause.outcome = match s.state with
    | .idle => none
    | .busy => none
    | .ok => none
    | .fail => some .fail
    | .fault => some .fault

/-- `type` without the 64 of a restart interval is 0 or 1 (R33, R168). -/
abbrev State.TypeOk (s : State) : Prop :=
  if s.state = .ok then
    s.type = (if s.driFound then 64 else 0) ∨ s.type = (if s.driFound then 65 else 1)
  else s.type = 0 ∨ s.type = 1

/-- The scan-data view: a lossless partition after OK (R39), empty otherwise (R49). -/
abbrev State.ViewOk (s : State) : Prop :=
  if s.state = .ok then s.scanOff = s.headerLen ∧ s.scanOff.toNat + s.scanLen.toNat = s.size.toNat
  else s.scanOff = 0 ∧ s.scanLen = 0

/-- The invariant of the machine: it holds at reset, every step of the parser and every command of the host keeps it. -/
structure State.Inv (s : State) : Prop where
  /-- The Container is loaded up to `size` (R45). -/
  contFull : s.ContFull
  /-- `size` is legal (R23). -/
  sizeOk : s.SizeOk
  /-- The table store is canonical and in range (R44). -/
  qtOk : s.QtOk
  /-- `offset` exceeds `size` by at most 65535 (R24). -/
  offsetBound : s.o ≤ s.size.toNat + 65535
  /-- `cause` fits `state` (R22). -/
  causeOk : s.CauseOk
  /-- `dri_found` is 1 exactly when `restart_interval` is not 0 (R204). -/
  driIff : s.driFound = driFlag s.restartInterval
  /-- `header_len` is inside the Container, and 0 while no SOS completed (R36, R216). -/
  headerOk : s.headerLen.toNat ≤ s.size.toNat ∧ (s.sosFound = false → s.headerLen = 0)
  /-- The view (R39, R49). -/
  viewOk : s.ViewOk
  /-- The type (R219). -/
  typeOk : s.TypeOk
  /-- After OK the frame and a table marker were found and no block count is zero (R219). -/
  okFound : s.state = .ok → s.sofFound = true ∧ s.dqtFound = true ∧ s.widthBlocks ≠ 0 ∧ s.heightBlocks ≠ 0
  /-- In IDLE nothing has been written since `ClearResults()` (R48, R233, R234). -/
  idleClear : s.state = .idle → s = s.clearResults

/-- The checks of SOF0 on the 17 bytes in the order of R163 to R168, each with the cause it raises, for a pass that
leaves the first entry of the file first (R171). -/
def sofCheckList (seg : SofSegment) : List (Cause × Bool) :=
  [ (.sofLength, decide (seg.len.toNat < 17)),
    (.sofPrecision, decide (seg.prec.toNat ≠ 8)),
    (.sofDimension, decide (seg.height.toNat = 0 ∨ seg.height.toNat > 2040 ∨ seg.width.toNat = 0 ∨ seg.width.toNat > 2040)),
    (.sofNcomp, decide (seg.ncomp.toNat ≠ 3)),
    (.sofSamplingFirst, decide (seg.c0.samp.toNat ≠ 0x21 ∧ seg.c0.samp.toNat ≠ 0x22)),
    (.sofSamplingOther, decide (seg.c1.samp.toNat ≠ 0x11 ∨ seg.c2.samp.toNat ≠ 0x11)),
    (.sofQtMismatch, decide (seg.c1.qt ≠ seg.c2.qt)) ]

/-- The cause SOF0 reports for a segment: that of the first check in the list that fails (R160, R266). -/
def firstSofFailure (seg : SofSegment) : Option Cause := ((sofCheckList seg).find? fun c => c.2).map Prod.fst

/-- The bytes of the Container at `n` addresses from `a` up, those it holds. -/
def State.bytesAt (s : State) (a n : Nat) : List Byte := (List.range n).filterMap fun k => s.u8 (a + k)

/-- The tables DQT takes from the bytes of a segment, read as a list: each with its header byte, in order, up to id 15
or the first table that does not fit (R185). The first argument bounds the number of entries. -/
def tableEntries : Nat → List Byte → List (Byte × List Byte)
  | 0, _ => []
  | _ + 1, [] => []
  | fuel + 1, b :: bs =>
    if b.toNat % 16 = 15 then []
    else
      let ts := if b.toNat / 16 = 0 then 64 else 128
      if bs.length < ts then [] else (b, bs.take ts) :: tableEntries fuel (bs.drop ts)

/-- The table store after the tables of a list: each table's bytes from index `id * table_size` up, in order (R185). -/
def storeTables (qt : Memory) (entries : List (Byte × List Byte)) : Memory :=
  entries.foldl (fun m e => m.writeBytes (e.1.toNat % 16 * e.2.length) e.2) qt

/-- `precision` after the tables of a list: that of the last one (R187). -/
def lastPrecision (old : BitVec 1) (entries : List (Byte × List Byte)) : BitVec 1 :=
  entries.foldl (fun _ e => if e.1.toNat / 16 = 0 then 0 else 1) old

end Sys2Proof.Machine
end

