-- ==== Sys2Proof/Certificates/Slice0/Obligations.lean ====
section
/-! DEFINITION. The statements for the provers, from the numbered rules of spec/. A next state is written out as the
state before with the fields the rule names, so that every other register, flag and both memories are unchanged (the
frame). `s.o` is `offset` as a number; `s.u8 a` and `s.be16 a` are the bytes the Container holds. -/

open Sys2Proof Sys2Proof.Machine

/-! ### Encoding -/

/-- R90, R92: markers written out from the code table decode to their operations, the bytes after the code left over
(the code values are the spec's general knowledge, log entry 1); a stream that does not begin with the marker-start byte, or has no code byte, is refused (log entry 20); an opcode-table word is
read the same way (log entry 10). -/
def Obligations.SpecMarkersDecode : Prop :=
  decode [0xFF, 0xC0, 0x00, 0x11] = .ok (.sof0, [0x00, 0x11]) ∧
  decode [0xFF, 0xC4, 0x00] = .ok (.dht, [0x00]) ∧
  decode [0xFF, 0xD8] = .ok (.soi, []) ∧
  decode [0xFF, 0xD9] = .ok (.eoi, []) ∧
  decode [0xFF, 0xDA] = .ok (.sos, []) ∧
  decode [0xFF, 0xDB] = .ok (.dqt, []) ∧
  decode [0xFF, 0xDD] = .ok (.dri, []) ∧
  decode [0xFF, 0xE1] = .ok (.appn 1, []) ∧
  decode [0xFF, 0xFE] = .ok (.com, []) ∧
  decode [0xFF, 0xFF, 0xC0] = .ok (.other 0xFF, [0xC0]) ∧
  decode [0xFF] = .error .truncated ∧
  decode [0xD8, 0xFF] = .error (.notMarkerStart 0xD8) ∧
  decodeTableWord 16 0xFFDB = some .dqt

/-- R92, R103: the code table (its values: log entry 1) is total. The eight single codes and the sixteen APPn codes select their operations, every
other code selects OTHER, and those are 232 codes. -/
def Obligations.CodeTableIsTotal : Prop :=
  decodeCode 0xC0 = .sof0 ∧ decodeCode 0xC4 = .dht ∧ decodeCode 0xD8 = .soi ∧ decodeCode 0xD9 = .eoi ∧
  decodeCode 0xDA = .sos ∧ decodeCode 0xDB = .dqt ∧ decodeCode 0xDD = .dri ∧ decodeCode 0xFE = .com ∧
  (∀ n : BitVec 4, decodeCode (0xE0 + n.setWidth 8) = .appn n) ∧
  (∀ c : Byte, c ∉ ([0xC0, 0xC4, 0xD8, 0xD9, 0xDA, 0xDB, 0xDD, 0xFE] : List Byte) → ¬(0xE0 ≤ c ∧ c ≤ 0xEF) →
    decodeCode c = .other c) ∧
  ((List.range 256).filter fun k => decodeCode (BitVec.ofNat 8 k) = .other (BitVec.ofNat 8 k)).length = 232

/-- R107: trying the rows of the opcode table in their order, by mask and match, selects the operation the code selects. -/
def Obligations.TableRowsAgreeWithCodes : Prop :=
  ∀ c : Byte, ∃ row, selectRow (markerWord c) = some row ∧ row.build c = decodeCode c

/-- Decode and encode agree, both ways: an encoded well-formed operation decodes to itself whatever follows it, and what
decodes is the encoding of a well-formed operation followed by the rest. No bit of a marker is dropped. -/
def Obligations.DecodeEncodeRoundTrip : Prop :=
  (∀ (i : Instr) (rest : List Byte), i.wf = true → decode (encode i ++ rest) = .ok (i, rest)) ∧
  (∀ (bytes rest : List Byte) (i : Instr), decode bytes = .ok (i, rest) → i.wf = true ∧ bytes = encode i ++ rest)

/-! ### Memory primitives -/

/-- R62, R63, R99: `U8(a)` is the Container byte at `a` and needs `a < size`; `BE16(a)` needs `a + 1 < size` and is the
byte at `a` times 256 plus the byte at `a + 1`. -/
def Obligations.FieldsAreBigEndian : Prop :=
  ∀ (s : State) (a : Nat) (hi lo : Byte),
    (a < s.size.toNat → s.u8 a = s.cont.read a) ∧ (s.size.toNat ≤ a → s.u8 a = none) ∧
    (s.size.toNat ≤ a + 1 → s.be16 a = none) ∧
    (a + 1 < s.size.toNat → s.cont.read a = some hi → s.cont.read (a + 1) = some lo →
      ∃ v : Half, s.be16 a = some v ∧ v.toNat = hi.toNat * 256 + lo.toNat)

/-- R65: `MemWrite(QT, i, 1, v)` for `i <= 1919` writes that byte and no other, whatever was there; above 1919 it is no
access that exists, and the model stops (log entry 6). -/
def Obligations.TableStoreWriteIsOneByte : Prop :=
  ∀ (s : State) (i : Nat) (v : Byte),
    (i ≤ 1919 → ∃ t, writeQt s i v = .next t ∧ t = { s with qt := t.qt } ∧ t.qt.read i = some v ∧
      ∀ j, j ≠ i → t.qt.read j = s.qt.read j) ∧
    (1919 < i → writeQt s i v = .fault .tableStoreWrite)

/-! ### Steps of the parser -/

/-- R122, R124: a marker step. Where the first 0xFF at or after `offset` stands at `i` and a byte `c` follows it below
`size` (the marker-start byte: log entry 1), the step is the operation that the marker decodes to, with `offset` at `i + 2`. -/
def Obligations.StepRunsDecodedMarker : Prop :=
  ∀ (s : State) (i : Nat) (c : Byte) (ins : Instr),
    s.state = .busy → s.sosFound = false → s.o ≤ i → i + 1 < s.size.toNat →
    (∀ a, s.o ≤ a → a < i → ∃ b, s.u8 a = some b ∧ b ≠ 0xFF) → s.u8 i = some 0xFF → s.u8 (i + 1) = some c →
    decode [0xFF, c] = .ok (ins, []) →
    ∃ off : Word, off.toNat = i + 2 ∧ step s = exec ins { s with offset := off }

/-- R123, with the marker-start byte of log entry 1: where no 0xFF stands at or after `offset`, or only one at the last address, the step writes `offset <- size`,
performs no operation and changes no flag. -/
def Obligations.SearchExhaustionEndsTheScan : Prop :=
  ∀ (s : State) (b : Byte),
    s.state = .busy → s.sosFound = false → s.o < s.size.toNat →
    (∀ a, s.o ≤ a → a + 1 < s.size.toNat → ∃ c, s.u8 a = some c ∧ c ≠ 0xFF) →
    s.u8 (s.size.toNat - 1) = some b →
    step s = .next { s with offset := s.size }

/-- The model's reading of "When `state` is not BUSY the parser has no step" (R120): the state stays, for any number of
steps (log entry 7). -/
def Obligations.ParserIdleOutsideBusy : Prop :=
  ∀ (s : State) (k : Nat), s.state ≠ .busy → step s = .next s ∧ parserRun k s = .next s

/-! ### Operations without a segment, and skipped segments -/

/-- R145, R147: SOI and OTHER, of any code, change nothing; `offset` stays at `o`. -/
def Obligations.SoiAndOtherChangeNothing : Prop :=
  ∀ s : State, exec .soi s = .next s ∧ ∀ c : Byte, exec (.other c) s = .next s

/-- R146: EOI sets `eoi_seen` and changes nothing else; `offset` stays at `o`. -/
def Obligations.EoiSetsEoiSeen : Prop :=
  ∀ s : State, exec .eoi s = .next { s with eoiSeen := true }

/-- R141 to R144: COM, APPn (each of the sixteen) and DHT advance `offset` by the declared length, obeyed literally, and
to `size` where the length field is not wholly inside the buffer; nothing else changes. -/
def Obligations.SkippedMarkersAdvanceByLength : Prop :=
  ∀ (i : Instr) (s : State), (i = .com ∨ i = .dht ∨ ∃ n, i = .appn n) → s.SizeOk →
    (s.size.toNat < s.o + 2 → exec i s = .next { s with offset := s.size }) ∧
    (∀ len : Half, s.o + 2 ≤ s.size.toNat → s.be16 s.o = some len →
      ∃ off : Word, off.toNat = s.o + len.toNat ∧ exec i s = .next { s with offset := off })

/-! ### SOF0 -/

/-- R95: where the 17 bytes of format F are read, each field is the bytes at its place after `o`. -/
def Obligations.SofSegmentFollowsFormatF : Prop :=
  ∀ (s : State) (seg : SofSegment), s.sofSegment s.o = some seg ↔
    s.be16 s.o = some seg.len ∧ s.u8 (s.o + 2) = some seg.prec ∧ s.be16 (s.o + 3) = some seg.height ∧
    s.be16 (s.o + 5) = some seg.width ∧ s.u8 (s.o + 7) = some seg.ncomp ∧
    s.u8 (s.o + 8) = some seg.c0.id ∧ s.u8 (s.o + 9) = some seg.c0.samp ∧ s.u8 (s.o + 10) = some seg.c0.qt ∧
    s.u8 (s.o + 11) = some seg.c1.id ∧ s.u8 (s.o + 12) = some seg.c1.samp ∧ s.u8 (s.o + 13) = some seg.c1.qt ∧
    s.u8 (s.o + 14) = some seg.c2.id ∧ s.u8 (s.o + 15) = some seg.c2.samp ∧ s.u8 (s.o + 16) = some seg.c2.qt

/-- R161, R162: a SOF0 after an accepted one raises Fault(SOF_REPEATED) before anything is read; with fewer than 17 bytes
from `o` on a first one raises Fail(SOF_SHORT_BUFFER). Nothing else changes. -/
def Obligations.Sof0RepeatedOrCut : Prop :=
  ∀ s : State,
    (s.sofFound = true → exec .sof0 s = .next { s with state := .fault, cause := .sofRepeated }) ∧
    (s.sofFound = false → s.size.toNat < s.o + 17 →
      exec .sof0 s = .next { s with state := .fail, cause := .sofShortBuffer })

/-- R165, R168, R169: a first SOF0 whose 17 bytes pass every check stores the block counts and the type, sets
`sof_found`, advances `offset` by the declared length, and changes nothing else. The component ids and the first
component's table id are any bytes: the floor of the insertion pass is 1, the spec's own choice (log entry 3). -/
def Obligations.Sof0AcceptsValidFrame : Prop :=
  ∀ (s : State) (len height width : Half) (id0 samp0 qt0 id1 id2 qtc : Byte),
    s.SizeOk → s.sofFound = false → s.o + 17 ≤ s.size.toNat →
    s.be16 s.o = some len → 17 ≤ len.toNat → s.u8 (s.o + 2) = some 8 →
    s.be16 (s.o + 3) = some height → 1 ≤ height.toNat → height.toNat ≤ 2040 →
    s.be16 (s.o + 5) = some width → 1 ≤ width.toNat → width.toNat ≤ 2040 →
    s.u8 (s.o + 7) = some 3 →
    s.u8 (s.o + 8) = some id0 → s.u8 (s.o + 9) = some samp0 → (samp0 = 0x21 ∨ samp0 = 0x22) →
    s.u8 (s.o + 10) = some qt0 →
    s.u8 (s.o + 11) = some id1 → s.u8 (s.o + 12) = some 0x11 → s.u8 (s.o + 13) = some qtc →
    s.u8 (s.o + 14) = some id2 → s.u8 (s.o + 15) = some 0x11 → s.u8 (s.o + 16) = some qtc →
    ∃ (wb hb : Byte) (off : Word),
      wb.toNat = width.toNat / 8 ∧ hb.toNat = height.toNat / 8 ∧ off.toNat = s.o + len.toNat ∧
      exec .sof0 s = .next { s with
        widthBlocks := wb, heightBlocks := hb, type := if samp0 = 0x21 then 0 else 1, sofFound := true, offset := off }

/-- R160, R163 to R168, R170, R266: a first SOF0 with its 17 bytes inside the buffer reports the first check that fails,
in the order of the rules. `offset` and `sof_found` stay. The block counts are stored exactly when the dimension check
passed, the type exactly when the first component's sampling byte passed, and nothing else changes. Which component is the first
rests on the floor 1 of the insertion pass, the spec's own choice (log entry 3). -/
def Obligations.Sof0ReportsFirstFailedCheck : Prop :=
  ∀ (s : State) (seg : SofSegment) (c : Cause),
    s.sofFound = false → s.o + 17 ≤ s.size.toNat → s.sofSegment s.o = some seg → firstSofFailure seg = some c →
    ∃ t, exec .sof0 s = .next t ∧
      t = { s with
        state := .fail, cause := c, widthBlocks := t.widthBlocks, heightBlocks := t.heightBlocks, type := t.type } ∧
      (c ∈ [Cause.sofLength, .sofPrecision, .sofDimension] →
        t.widthBlocks = s.widthBlocks ∧ t.heightBlocks = s.heightBlocks) ∧
      (c ∉ [Cause.sofLength, .sofPrecision, .sofDimension] →
        t.widthBlocks.toNat = seg.width.toNat / 8 ∧ t.heightBlocks.toNat = seg.height.toNat / 8) ∧
      (c ∈ [Cause.sofSamplingOther, .sofQtMismatch] → t.type = if seg.c0.samp = 0x21 then 0 else 1) ∧
      (c ∉ [Cause.sofSamplingOther, .sofQtMismatch] → t.type = s.type)

/-- R167: with the floor 1, the spec's own choice (log entry 3), the first entry of the file stays first and the last two stand in file order exactly when the
second id is below the third; with the floor 0 the pass sorts by id. -/
def Obligations.InsertionPassOrder : Prop :=
  ∀ c0 c1 c2 : Component,
    insertionPass 1 c0 c1 c2 = (if c1.id < c2.id then [c0, c1, c2] else [c0, c2, c1]) ∧
    (insertionPass 0 c0 c1 c2).Perm [c0, c1, c2] ∧
    (insertionPass 0 c0 c1 c2).Pairwise fun x y => x.id ≤ y.id

/-- R171, for the floor 1 of log entry 3: the component ids have no observable effect. Two states that differ in their Containers only, holding SOF0
segments that differ in the three ids only, get next states that again differ in their Containers only. -/
def Obligations.ComponentIdsUnobservable : Prop :=
  ∀ (s : State) (cont' : Memory) (seg : SofSegment) (id0 id1 id2 : Byte),
    s.sofSegment s.o = some seg →
    ({ s with cont := cont' } : State).sofSegment s.o = some { seg with
      c0 := { seg.c0 with id := id0 }, c1 := { seg.c1 with id := id1 }, c2 := { seg.c2 with id := id2 } } →
    ∃ t, exec .sof0 s = .next t ∧ exec .sof0 { s with cont := cont' } = .next { t with cont := cont' }

/-! ### DQT -/

/-- R181 to R183: a DQT whose length field is cut, or whose declared length is below 2, sets `dqt_found` and ends the
scan; no table byte and no other register changes. -/
def Obligations.DqtWithoutLengthEndsTheScan : Prop :=
  ∀ s : State,
    (s.size.toNat < s.o + 2 → exec .dqt s = .next { s with dqtFound := true, offset := s.size }) ∧
    (∀ len : Half, s.o + 2 ≤ s.size.toNat → s.be16 s.o = some len → len.toNat < 2 →
      exec .dqt s = .next { s with dqtFound := true, offset := s.size })

/-- R184 to R187: any other DQT completes, with `dqt_found` set as R181 sets it on every path. It stores the tables read from the bytes of the clamped segment in their
order, later bytes over earlier ones, up to id 15 or the first table that does not fit; `precision` is that of the last
table stored; `offset` goes to the end of the clamped segment; nothing else changes. -/
def Obligations.DqtStoresTheTablesOfItsSegment : Prop :=
  ∀ (s : State) (len : Half),
    s.SizeOk → s.Readable → s.o + 2 ≤ s.size.toNat → s.be16 s.o = some len → 2 ≤ len.toNat →
    let n := min len.toNat (s.size.toNat - s.o)
    let entries := tableEntries n (s.bytesAt (s.o + 2) (n - 2))
    ∃ off : Word, off.toNat = s.o + n ∧
      exec .dqt s = .next { s with
        dqtFound := true, offset := off
        qt := storeTables s.qt entries, precision := lastPrecision s.precision entries }

/-- R185, R187: a DQT segment of exactly one table, id 0 to 14. Byte `k` of the table is read at `id * ts + k` afterwards,
every other byte of the store reads as before, and `precision` tells the table's size. -/
def Obligations.DqtCopiesOneTable : Prop :=
  ∀ (s : State) (len : Half) (b : Byte) (id ts : Nat),
    s.SizeOk → s.Readable → s.be16 s.o = some len → s.u8 (s.o + 2) = some b →
    b.toNat % 16 = id → id ≠ 15 → ts = (if b.toNat / 16 = 0 then 64 else 128) →
    len.toNat = ts + 3 → s.o + len.toNat ≤ s.size.toNat →
    ∃ (t : State) (off : Word), exec .dqt s = .next t ∧ off.toNat = s.o + len.toNat ∧
      t = { s with dqtFound := true, offset := off, precision := if ts = 64 then 0 else 1, qt := t.qt } ∧
      ∀ i, t.qt.read i =
        if id * ts ≤ i ∧ i < id * ts + ts then s.u8 (s.o + 3 + (i - id * ts)) else s.qt.read i

/-- R185, R186: a DQT whose first table has id 15, or does not fit the clamped segment, stores nothing; `precision` stays,
`dqt_found` is set and `offset` goes to the end of the clamped segment. -/
def Obligations.DqtFirstTableRefused : Prop :=
  ∀ (s : State) (len : Half) (b : Byte),
    s.SizeOk → s.be16 s.o = some len → 3 ≤ len.toNat → s.u8 (s.o + 2) = some b →
    (b.toNat % 16 = 15 ∨ min len.toNat (s.size.toNat - s.o) < (if b.toNat / 16 = 0 then 64 else 128) + 3) →
    ∃ off : Word, off.toNat = s.o + min len.toNat (s.size.toNat - s.o) ∧
      exec .dqt s = .next { s with dqtFound := true, offset := off }

/-! ### DRI -/

/-- R203: a DRI that meets its requirements writes the interval and its flag together, advances `offset` by the declared
length, and changes nothing else. -/
def Obligations.DriReadsTheInterval : Prop :=
  ∀ (s : State) (len value : Half),
    s.SizeOk → s.o + 4 ≤ s.size.toNat → s.be16 s.o = some len → 4 ≤ len.toNat → s.be16 (s.o + 2) = some value →
    ∃ off : Word, off.toNat = s.o + len.toNat ∧
      exec .dri s = .next { s with
        restartInterval := value, driFound := decide (value.toNat ≠ 0), offset := off }

/-- R201, R202: a DRI with fewer than 4 bytes from `o` on, or with a declared length below 4, changes nothing. -/
def Obligations.DriBelowRequirementsIgnored : Prop :=
  ∀ s : State,
    (s.size.toNat < s.o + 4 → exec .dri s = .next s) ∧
    (∀ len : Half, s.o + 4 ≤ s.size.toNat → s.be16 s.o = some len → len.toNat < 4 → exec .dri s = .next s)

/-! ### SOS and the finish step -/

/-- R213: an SOS whose scan data begin inside the buffer or at its end writes `header_len <- o + L` and `sos_found <- 1`;
`offset` stays at `o` and nothing else changes. -/
def Obligations.SosMarksTheScanStart : Prop :=
  ∀ (s : State) (len : Half),
    s.o + 2 ≤ s.size.toNat → s.be16 s.o = some len → s.o + len.toNat ≤ s.size.toNat →
    ∃ n : Word, n.toNat = s.o + len.toNat ∧ exec .sos s = .next { s with headerLen := n, sosFound := true }

/-- R211, R212: an SOS with its length field cut raises Fault(SOS_TRUNCATED); one whose scan data would begin beyond the
end raises Fault(SCAN_START_BEYOND_END). Nothing else changes. -/
def Obligations.SosFaults : Prop :=
  ∀ s : State,
    (s.size.toNat < s.o + 2 → exec .sos s = .next { s with state := .fault, cause := .sosTruncated }) ∧
    (∀ len : Half, s.o + 2 ≤ s.size.toNat → s.be16 s.o = some len → s.size.toNat < s.o + len.toNat →
      exec .sos s = .next { s with state := .fault, cause := .scanStartBeyondEnd })

/-- R121, R215: when SOS completed or the buffer is used up, the next step is the finish step: NO_SOF, then NO_DQT, then
ZERO_BLOCKS, each writing `state` and `cause` only. -/
def Obligations.FinishStepFailsInOrder : Prop :=
  ∀ s : State, s.state = .busy → (s.sosFound = true ∨ s.size.toNat ≤ s.o) →
    (s.sofFound = false → step s = .next { s with state := .fail, cause := .noSof }) ∧
    (s.sofFound = true → s.dqtFound = false → step s = .next { s with state := .fail, cause := .noDqt }) ∧
    (s.sofFound = true → s.dqtFound = true → (s.widthBlocks = 0 ∨ s.heightBlocks = 0) →
      step s = .next { s with state := .fail, cause := .zeroBlocks })

/-- R215, R216: otherwise the finish step succeeds. It publishes the view, adds 64 to the type when a nonzero restart
interval was found, and writes `state <- OK`; nothing else changes. -/
def Obligations.FinishStepPublishesTheResult : Prop :=
  ∀ s : State, s.state = .busy → (s.sosFound = true ∨ s.size.toNat ≤ s.o) →
    s.sofFound = true → s.dqtFound = true → s.widthBlocks ≠ 0 → s.heightBlocks ≠ 0 →
    s.headerLen.toNat ≤ s.size.toNat →
    ∃ n : Word, n.toNat = s.size.toNat - s.headerLen.toNat ∧
      step s = .next { s with
        scanOff := s.headerLen, scanLen := n, type := if s.driFound then s.type + 64 else s.type, state := .ok }

/-- R217: a parse whose buffer is used up without an SOS, and which passes the three tests, succeeds with a view of the
whole Container. -/
def Obligations.SuccessWithoutSosViewsEverything : Prop :=
  ∀ s : State, s.Inv → s.state = .busy → s.sosFound = false → s.size.toNat ≤ s.o →
    s.sofFound = true → s.dqtFound = true → s.widthBlocks ≠ 0 → s.heightBlocks ≠ 0 →
    ∃ t, step s = .next t ∧ t.state = .ok ∧ t.sosFound = false ∧ t.headerLen = 0 ∧ t.scanOff = 0 ∧ t.scanLen = s.size

/-! ### Failures and faults -/

/-- R263, R264, R269: raising Fail or Fault writes `state` and `cause` and nothing else. -/
def Obligations.RaiseWritesStateAndCause : Prop :=
  ∀ (s : State) (c : Cause),
    s.raiseFail c = { s with state := .fail, cause := c } ∧ s.raiseFault c = { s with state := .fault, cause := c }

/-- R21, R261: the codes of `state` and of every cause, and the class of a cause. -/
def Obligations.CauseCodesAndClasses : Prop :=
  [ParseState.idle, .busy, .ok, .fail, .fault].map ParseState.code = [0, 1, 2, 3, 4] ∧
  [Cause.noCause, .noSof, .noDqt, .zeroBlocks, .sofShortBuffer, .sofLength, .sofPrecision, .sofDimension, .sofNcomp,
    .sofSamplingFirst, .sofSamplingOther, .sofQtMismatch, .sofRepeated, .sosTruncated, .scanStartBeyondEnd].map
      (fun c => c.code.toNat) =
    [0x00, 0x10, 0x11, 0x12, 0x13, 0x14, 0x15, 0x16, 0x17, 0x18, 0x19, 0x1A, 0x20, 0x21, 0x22] ∧
  ∀ c : Cause, (c.outcome = none ↔ c.code.toNat / 16 = 0) ∧ (c.outcome = some .fail ↔ c.code.toNat / 16 = 1) ∧
    (c.outcome = some .fault ↔ c.code.toNat / 16 = 2)

/-- R270: a marker step that ends the parse leaves `offset` two above the marker-start byte of the offending marker; the
finish step leaves `offset` where the loop ended. -/
def Obligations.OffsetNamesTheOffendingMarker : Prop :=
  ∀ s t : State, s.state = .busy → step s = .next t → t.state ≠ .busy →
    (s.sosFound = false ∧ s.o < s.size.toNat → 2 ≤ t.o ∧ s.o ≤ t.o - 2 ∧ s.u8 (t.o - 2) = some 0xFF) ∧
    (s.sosFound = true ∨ s.size.toNat ≤ s.o → t.offset = s.offset)

/-! ### The whole machine -/

/-- R47: the state right after reset. That no Container byte is listed is the model's form of "unspecified, never read"
(log entry 4). -/
def Obligations.ResetState : Prop :=
  State.reset = {
    cont := [], size := 0, state := .idle, cause := .noCause, offset := 0
    sofFound := false, dqtFound := false, sosFound := false, driFound := false, eoiSeen := false
    widthBlocks := 0, heightBlocks := 0, type := 0, precision := 0, restartInterval := 0
    headerLen := 0, scanOff := 0, scanLen := 0, qfactor := 255, qt := [] }

/-- The invariant of the machine holds at reset. -/
def Obligations.ResetMeetsInvariant : Prop := State.reset.Inv

/-- Every step of the parser keeps the invariant of the machine, from every state that meets it. -/
def Obligations.StepKeepsInvariant : Prop :=
  ∀ s t : State, s.Inv → step s = .next t → t.Inv

/-- Every command of the host keeps the invariant, for every capacity the spec admits. -/
def Obligations.CommandsKeepInvariant : Prop :=
  ∀ (cap : Nat) (c : HostCmd) (s : State), Config.CapOk cap → s.Inv → (hostApply cap c s).Inv

/-- R64: no rule reads the Container at or above `size`, and no table write is out of range: from a state that meets the
invariant the step answers a next state. -/
def Obligations.StepNeverStops : Prop :=
  ∀ s : State, s.Inv → ∃ t, step s = .next t

/-- Every run of the two agents from reset, in any order of turns, goes on for ever within the invariant. -/
def Obligations.RunsFromResetNeverStop : Prop :=
  ∀ (cap : Nat) (es : List Event), Config.CapOk cap → ∃ t, turns cap es State.reset = .next t ∧ t.Inv

/-- R25: `offset` never decreases during a parse, and every marker step leaves it at least 2 greater than it found it or
at a value at or above `size`. -/
def Obligations.OffsetMakesProgress : Prop :=
  ∀ s t : State, s.Inv → s.state = .busy → step s = .next t →
    s.o ≤ t.o ∧ (s.sosFound = false → s.o < s.size.toNat → s.o + 2 ≤ t.o ∨ s.size.toNat ≤ t.o)

/-- R125: a parse always ends. From every state that meets the invariant and is not BUSY, START is accepted, and within
`size / 2 + 1` marker steps and one finish step the parser reaches OK, FAIL or FAULT. The count of steps is fixed: where
the parse ends earlier, the steps left over change nothing, by log entry 7. -/
def Obligations.EveryParseEnds : Prop :=
  ∀ (cap : Nat) (s : State), s.Inv → s.state ≠ .busy →
    ∃ s0 t : State, hostCommand cap .start s = some (s0, .nothing) ∧ s0.state = .busy ∧
      Host.Core.run Sys2Proof.core (s.size.toNat / 2 + 2) s0 = .next t ∧
      (t.state = .ok ∨ t.state = .fail ∨ t.state = .fault)

/-- R126, R235: a parse is a function of the Container and its size only: two states that agree in these two, whatever
their results, flags, tables and quality factors, end their parses in states that differ in the quality factor only,
which each parse leaves as it was (R40). `parseAll` takes a fixed count of steps, those after the end by log entry 7. -/
def Obligations.ParseIsFunctionOfContainer : Prop :=
  ∀ s s' t : State, s.state ≠ .busy → s'.state ≠ .busy → s.cont = s'.cont → s.size = s'.size →
    parseAll s = .next t → t.qfactor = s.qfactor ∧ parseAll s' = .next { t with qfactor := s'.qfactor }

/-- R235: START after a completed parse parses the same Container again and ends in the same state (`parseAll` takes a
fixed count of steps, those after the end by log entry 7). -/
def Obligations.ReparseEndsInTheSameState : Prop :=
  ∀ s t : State, s.Inv → s.state ≠ .busy → parseAll s = .next t → t.state ≠ .busy ∧ parseAll t = .next t

/-- R275, R23, R40, R45: no step of the parser writes the Container, its size or the quality factor. -/
def Obligations.ParserNeverWritesHostState : Prop :=
  ∀ s t : State, step s = .next t → t.cont = s.cont ∧ t.size = s.size ∧ t.qfactor = s.qfactor

/-- R20 to R38, R44: every register a marker operation can write is written by the operation its rule names and by no
other; no marker operation writes the Container, `size`, `qfactor` or the view registers. -/
def Obligations.EachRegisterHasItsWriter : Prop :=
  ∀ (i : Instr) (s t : State), exec i s = .next t →
    (i ≠ .sof0 → t.sofFound = s.sofFound ∧ t.widthBlocks = s.widthBlocks ∧ t.heightBlocks = s.heightBlocks ∧
      t.type = s.type) ∧
    (i ≠ .dqt → t.dqtFound = s.dqtFound ∧ t.precision = s.precision ∧ t.qt = s.qt) ∧
    (i ≠ .sos → t.sosFound = s.sosFound ∧ t.headerLen = s.headerLen) ∧
    (i ≠ .dri → t.driFound = s.driFound ∧ t.restartInterval = s.restartInterval) ∧
    (i ≠ .eoi → t.eoiSeen = s.eoiSeen) ∧
    (i ≠ .sof0 → i ≠ .sos → t.state = s.state ∧ t.cause = s.cause) ∧
    t.cont = s.cont ∧ t.size = s.size ∧ t.qfactor = s.qfactor ∧ t.scanOff = s.scanOff ∧ t.scanLen = s.scanLen

/-- R39, R219: in every run from reset, whenever `state` is OK the view and the header section partition the Container
and the result registers have the values the rules allow. -/
def Obligations.OkResultIsLossless : Prop :=
  ∀ (cap : Nat) (es : List Event) (t : State), Config.CapOk cap → turns cap es State.reset = .next t → t.state = .ok →
    t.scanOff = t.headerLen ∧ t.scanOff.toNat + t.scanLen.toNat = t.size.toNat ∧ t.scanOff.toNat ≤ t.size.toNat ∧
    t.type.toNat ∈ [0, 1, 64, 65] ∧ (64 ≤ t.type.toNat ↔ t.driFound = true) ∧
    1 ≤ t.widthBlocks.toNat ∧ t.widthBlocks.toNat ≤ 255 ∧ 1 ≤ t.heightBlocks.toNat ∧ t.heightBlocks.toNat ≤ 255 ∧
    t.sofFound = true ∧ t.dqtFound = true ∧ t.cause.code = 0x00

/-- R22, R49, R204: in every run from reset, outside OK there is no scan data and `type` has no 64 added; `cause` is NONE
exactly outside FAIL and FAULT; and at every point `dri_found` is 1 exactly when the interval is not 0. -/
def Obligations.FailedParseHasNoScanData : Prop :=
  ∀ (cap : Nat) (es : List Event) (t : State), Config.CapOk cap → turns cap es State.reset = .next t →
    (t.state ≠ .ok → t.scanOff = 0 ∧ t.scanLen = 0 ∧ t.type.toNat ≤ 1) ∧
    (t.cause = .noCause ↔ t.state ≠ .fail ∧ t.state ≠ .fault) ∧
    (t.driFound = true ↔ t.restartInterval.toNat ≠ 0)

/-! ### Host commands -/

/-- R233, R300: RESET is accepted in every state and gives the reset state, also during a parse. That it empties the
Container is the model's form of "unspecified" (log entry 4). -/
def Obligations.ResetCommandGivesResetState : Prop :=
  ∀ (cap : Nat) (s : State), hostCommand cap .reset s = some (State.reset, .nothing)

/-- R234: LOAD outside BUSY of at most `CONT_CAP` bytes makes them the Container, discards every result, keeps the
quality factor and goes to IDLE; during BUSY or above the capacity it is refused. -/
def Obligations.LoadReplacesTheContainer : Prop :=
  ∀ (cap : Nat) (bytes : List Byte) (s : State), Config.CapOk cap →
    (s.state ≠ .busy → bytes.length ≤ cap →
      ∃ t, hostCommand cap (.load bytes) s = some (t, .nothing) ∧ t.size.toNat = bytes.length ∧
        (∀ a, a < bytes.length → t.u8 a = bytes[a]?) ∧
        t = { State.reset with cont := t.cont, size := t.size, qfactor := s.qfactor }) ∧
    (s.state = .busy ∨ cap < bytes.length → hostCommand cap (.load bytes) s = none)

/-- R235: START outside BUSY clears every result, keeps the Container, its size and the quality factor, and goes to BUSY
at `offset` 0; during BUSY it is refused. -/
def Obligations.StartClearsAndGoesBusy : Prop :=
  ∀ (cap : Nat) (s : State),
    (s.state ≠ .busy → hostCommand cap .start s =
      some ({ State.reset with cont := s.cont, size := s.size, qfactor := s.qfactor, state := .busy }, .nothing)) ∧
    (s.state = .busy → hostCommand cap .start s = none)

/-- R236: SETQ outside BUSY writes the quality factor and nothing else; during BUSY it is refused. -/
def Obligations.SetqWritesQfactorOnly : Prop :=
  ∀ (cap : Nat) (v : Byte) (s : State),
    (s.state ≠ .busy → hostCommand cap (.setq v) s = some ({ s with qfactor := v }, .nothing)) ∧
    (s.state = .busy → hostCommand cap (.setq v) s = none)

/-- R41, R237: RD_STATUS is always accepted, changes nothing and returns the STATUS word: each field in its bits, and
only STATE while BUSY. -/
def Obligations.StatusWordLayout : Prop :=
  ∀ (cap : Nat) (s : State), ∃ w : Half, hostCommand cap .rdStatus s = some (s, .bits16 w) ∧
    w.toNat % 8 = s.state.code ∧
    (s.state = .busy → w = 1) ∧
    (s.state ≠ .busy →
      w.getLsbD 3 = s.sofFound ∧ w.getLsbD 4 = s.dqtFound ∧ w.getLsbD 5 = s.sosFound ∧ w.getLsbD 6 = s.driFound ∧
      w.getLsbD 7 = s.eoiSeen ∧ w.toNat / 256 = s.cause.code.toNat)

/-- R238, R239, R241: in OK every register read is accepted, changes nothing and returns its register; RD_SIZE and
RD_QFACTOR are so in every state, RD_OFFSET also in FAIL and FAULT; the other result reads are refused outside OK. -/
def Obligations.RegisterReadsReturnRegisters : Prop :=
  ∀ (cap : Nat) (s : State),
    hostCommand cap .rdSize s = some (s, .bits32 s.size) ∧ hostCommand cap .rdQfactor s = some (s, .bits8 s.qfactor) ∧
    (s.state = .ok ∨ s.state = .fail ∨ s.state = .fault → hostCommand cap .rdOffset s = some (s, .bits32 s.offset)) ∧
    (s.state = .idle ∨ s.state = .busy → hostCommand cap .rdOffset s = none) ∧
    (s.state = .ok →
      hostCommand cap .rdWidthBlocks s = some (s, .bits8 s.widthBlocks) ∧
      hostCommand cap .rdHeightBlocks s = some (s, .bits8 s.heightBlocks) ∧
      hostCommand cap .rdType s = some (s, .bits8 s.type) ∧
      hostCommand cap .rdPrecision s = some (s, .bits1 s.precision) ∧
      hostCommand cap .rdRestartInterval s = some (s, .bits16 s.restartInterval) ∧
      hostCommand cap .rdHeaderLen s = some (s, .bits32 s.headerLen) ∧
      hostCommand cap .rdScanOff s = some (s, .bits32 s.scanOff) ∧
      hostCommand cap .rdScanLen s = some (s, .bits32 s.scanLen)) ∧
    (s.state ≠ .ok → ∀ c ∈ [HostCmd.rdWidthBlocks, .rdHeightBlocks, .rdType, .rdPrecision, .rdRestartInterval,
      .rdHeaderLen, .rdScanOff, .rdScanLen], hostCommand cap c s = none)

/-- R240: RD_QT(i) is accepted exactly in OK, for `i <= 1919`, where the byte is written, and returns it; no state
changes. -/
def Obligations.TableReadReturnsWrittenByte : Prop :=
  ∀ (cap i : Nat) (s : State),
    (∀ v : Byte, s.state = .ok → i ≤ 1919 → s.qt.read i = some v →
      hostCommand cap (.rdQt i) s = some (s, .bits8 v)) ∧
    (s.state ≠ .ok ∨ 1919 < i ∨ s.qt.read i = none → hostCommand cap (.rdQt i) s = none)

/-- R242: in a state that meets the invariant, RD_SCAN(k) is accepted exactly in OK for `k < scan_len` and returns the
Container byte at `scan_off + k`, in place; no state changes. -/
def Obligations.ScanReadReturnsViewByte : Prop :=
  ∀ (cap k : Nat) (s : State), s.Inv →
    (s.state = .ok → k < s.scanLen.toNat →
      s.scanOff.toNat + k < s.size.toNat ∧ ∃ v : Byte, s.cont.read (s.scanOff.toNat + k) = some v ∧
        hostCommand cap (.rdScan k) s = some (s, .bits8 v)) ∧
    (s.state ≠ .ok ∨ s.scanLen.toNat ≤ k → hostCommand cap (.rdScan k) s = none)

/-- R245, R231: which commands are accepted in which state, and the value of `state` after an accepted one; a refused
command changes nothing and returns nothing. -/
def Obligations.AcceptanceByState : Prop :=
  ∀ (cap : Nat) (c : HostCmd) (s : State), s.Inv →
    ((hostCommand cap c s).isSome ↔ match c with
      | .reset => True
      | .load bytes => s.state ≠ .busy ∧ bytes.length ≤ cap
      | .start => s.state ≠ .busy
      | .setq _ => s.state ≠ .busy
      | .rdStatus => True
      | .rdSize => True
      | .rdQfactor => True
      | .rdOffset => s.state ≠ .idle ∧ s.state ≠ .busy
      | .rdWidthBlocks => s.state = .ok
      | .rdHeightBlocks => s.state = .ok
      | .rdType => s.state = .ok
      | .rdPrecision => s.state = .ok
      | .rdRestartInterval => s.state = .ok
      | .rdHeaderLen => s.state = .ok
      | .rdScanOff => s.state = .ok
      | .rdScanLen => s.state = .ok
      | .rdQt i => s.state = .ok ∧ i ≤ 1919 ∧ (s.qt.read i).isSome
      | .rdScan k => s.state = .ok ∧ k < s.scanLen.toNat) ∧
    (hostCommand cap c s = none → hostApply cap c s = s ∧ hostReply cap c s = none) ∧
    (∀ t r, hostCommand cap c s = some (t, r) → hostApply cap c s = t ∧ hostReply cap c s = some r ∧
      match c with
      | .reset => t.state = .idle
      | .load _ => t.state = .idle
      | .start => t.state = .busy
      | .setq _ => t.state = s.state
      | _ => t = s)

/-- R126, R232: a host can observe nothing of a parse in progress. Two states in BUSY with equal sizes and quality
factors answer every command alike, and where a command is accepted but for RESET the parse goes on untouched. -/
def Obligations.BusyHidesTheParse : Prop :=
  ∀ (cap : Nat) (c : HostCmd) (s s' : State),
    s.state = .busy → s'.state = .busy → s.size = s'.size → s.qfactor = s'.qfactor →
    hostReply cap c s = hostReply cap c s' ∧ (c ≠ .reset → hostApply cap c s = s)
end

