-- ==== Sys2Proof/Laws/State.lean ====
section
/-! SUPPORT. What each named update of the state leaves in each field: one lemma per field per update, true by `rfl`,
so that no proof unfolds an update. Under them: what an update leaves of the readings `o`, `u8` and `be16`. -/

namespace Sys2Proof.Machine

@[simp] theorem State.setOffset_cont (s : State) (n : Nat) : (s.setOffset n).cont = s.cont := rfl
@[simp] theorem State.setOffset_size (s : State) (n : Nat) : (s.setOffset n).size = s.size := rfl
@[simp] theorem State.setOffset_state (s : State) (n : Nat) : (s.setOffset n).state = s.state := rfl
@[simp] theorem State.setOffset_cause (s : State) (n : Nat) : (s.setOffset n).cause = s.cause := rfl
@[simp] theorem State.setOffset_offset (s : State) (n : Nat) : (s.setOffset n).offset = BitVec.ofNat 32 n := rfl
@[simp] theorem State.setOffset_sofFound (s : State) (n : Nat) : (s.setOffset n).sofFound = s.sofFound := rfl
@[simp] theorem State.setOffset_dqtFound (s : State) (n : Nat) : (s.setOffset n).dqtFound = s.dqtFound := rfl
@[simp] theorem State.setOffset_sosFound (s : State) (n : Nat) : (s.setOffset n).sosFound = s.sosFound := rfl
@[simp] theorem State.setOffset_driFound (s : State) (n : Nat) : (s.setOffset n).driFound = s.driFound := rfl
@[simp] theorem State.setOffset_eoiSeen (s : State) (n : Nat) : (s.setOffset n).eoiSeen = s.eoiSeen := rfl
@[simp] theorem State.setOffset_widthBlocks (s : State) (n : Nat) : (s.setOffset n).widthBlocks = s.widthBlocks := rfl
@[simp] theorem State.setOffset_heightBlocks (s : State) (n : Nat) : (s.setOffset n).heightBlocks = s.heightBlocks := rfl
@[simp] theorem State.setOffset_type (s : State) (n : Nat) : (s.setOffset n).type = s.type := rfl
@[simp] theorem State.setOffset_precision (s : State) (n : Nat) : (s.setOffset n).precision = s.precision := rfl
@[simp] theorem State.setOffset_restartInterval (s : State) (n : Nat) : (s.setOffset n).restartInterval = s.restartInterval := rfl
@[simp] theorem State.setOffset_headerLen (s : State) (n : Nat) : (s.setOffset n).headerLen = s.headerLen := rfl
@[simp] theorem State.setOffset_scanOff (s : State) (n : Nat) : (s.setOffset n).scanOff = s.scanOff := rfl
@[simp] theorem State.setOffset_scanLen (s : State) (n : Nat) : (s.setOffset n).scanLen = s.scanLen := rfl
@[simp] theorem State.setOffset_qfactor (s : State) (n : Nat) : (s.setOffset n).qfactor = s.qfactor := rfl
@[simp] theorem State.setOffset_qt (s : State) (n : Nat) : (s.setOffset n).qt = s.qt := rfl

@[simp] theorem State.setQtByte_cont (s : State) (i : Nat) (v : Byte) : (s.setQtByte i v).cont = s.cont := rfl
@[simp] theorem State.setQtByte_size (s : State) (i : Nat) (v : Byte) : (s.setQtByte i v).size = s.size := rfl
@[simp] theorem State.setQtByte_state (s : State) (i : Nat) (v : Byte) : (s.setQtByte i v).state = s.state := rfl
@[simp] theorem State.setQtByte_cause (s : State) (i : Nat) (v : Byte) : (s.setQtByte i v).cause = s.cause := rfl
@[simp] theorem State.setQtByte_offset (s : State) (i : Nat) (v : Byte) : (s.setQtByte i v).offset = s.offset := rfl
@[simp] theorem State.setQtByte_sofFound (s : State) (i : Nat) (v : Byte) : (s.setQtByte i v).sofFound = s.sofFound := rfl
@[simp] theorem State.setQtByte_dqtFound (s : State) (i : Nat) (v : Byte) : (s.setQtByte i v).dqtFound = s.dqtFound := rfl
@[simp] theorem State.setQtByte_sosFound (s : State) (i : Nat) (v : Byte) : (s.setQtByte i v).sosFound = s.sosFound := rfl
@[simp] theorem State.setQtByte_driFound (s : State) (i : Nat) (v : Byte) : (s.setQtByte i v).driFound = s.driFound := rfl
@[simp] theorem State.setQtByte_eoiSeen (s : State) (i : Nat) (v : Byte) : (s.setQtByte i v).eoiSeen = s.eoiSeen := rfl
@[simp] theorem State.setQtByte_widthBlocks (s : State) (i : Nat) (v : Byte) : (s.setQtByte i v).widthBlocks = s.widthBlocks := rfl
@[simp] theorem State.setQtByte_heightBlocks (s : State) (i : Nat) (v : Byte) : (s.setQtByte i v).heightBlocks = s.heightBlocks := rfl
@[simp] theorem State.setQtByte_type (s : State) (i : Nat) (v : Byte) : (s.setQtByte i v).type = s.type := rfl
@[simp] theorem State.setQtByte_precision (s : State) (i : Nat) (v : Byte) : (s.setQtByte i v).precision = s.precision := rfl
@[simp] theorem State.setQtByte_restartInterval (s : State) (i : Nat) (v : Byte) : (s.setQtByte i v).restartInterval = s.restartInterval := rfl
@[simp] theorem State.setQtByte_headerLen (s : State) (i : Nat) (v : Byte) : (s.setQtByte i v).headerLen = s.headerLen := rfl
@[simp] theorem State.setQtByte_scanOff (s : State) (i : Nat) (v : Byte) : (s.setQtByte i v).scanOff = s.scanOff := rfl
@[simp] theorem State.setQtByte_scanLen (s : State) (i : Nat) (v : Byte) : (s.setQtByte i v).scanLen = s.scanLen := rfl
@[simp] theorem State.setQtByte_qfactor (s : State) (i : Nat) (v : Byte) : (s.setQtByte i v).qfactor = s.qfactor := rfl
@[simp] theorem State.setQtByte_qt (s : State) (i : Nat) (v : Byte) : (s.setQtByte i v).qt = s.qt.write i v := rfl

@[simp] theorem State.endParse_cont (s : State) (r : ParseState) (c : Cause) : (s.endParse r c).cont = s.cont := rfl
@[simp] theorem State.endParse_size (s : State) (r : ParseState) (c : Cause) : (s.endParse r c).size = s.size := rfl
@[simp] theorem State.endParse_state (s : State) (r : ParseState) (c : Cause) : (s.endParse r c).state = r := rfl
@[simp] theorem State.endParse_cause (s : State) (r : ParseState) (c : Cause) : (s.endParse r c).cause = c := rfl
@[simp] theorem State.endParse_offset (s : State) (r : ParseState) (c : Cause) : (s.endParse r c).offset = s.offset := rfl
@[simp] theorem State.endParse_sofFound (s : State) (r : ParseState) (c : Cause) : (s.endParse r c).sofFound = s.sofFound := rfl
@[simp] theorem State.endParse_dqtFound (s : State) (r : ParseState) (c : Cause) : (s.endParse r c).dqtFound = s.dqtFound := rfl
@[simp] theorem State.endParse_sosFound (s : State) (r : ParseState) (c : Cause) : (s.endParse r c).sosFound = s.sosFound := rfl
@[simp] theorem State.endParse_driFound (s : State) (r : ParseState) (c : Cause) : (s.endParse r c).driFound = s.driFound := rfl
@[simp] theorem State.endParse_eoiSeen (s : State) (r : ParseState) (c : Cause) : (s.endParse r c).eoiSeen = s.eoiSeen := rfl
@[simp] theorem State.endParse_widthBlocks (s : State) (r : ParseState) (c : Cause) : (s.endParse r c).widthBlocks = s.widthBlocks := rfl
@[simp] theorem State.endParse_heightBlocks (s : State) (r : ParseState) (c : Cause) : (s.endParse r c).heightBlocks = s.heightBlocks := rfl
@[simp] theorem State.endParse_type (s : State) (r : ParseState) (c : Cause) : (s.endParse r c).type = s.type := rfl
@[simp] theorem State.endParse_precision (s : State) (r : ParseState) (c : Cause) : (s.endParse r c).precision = s.precision := rfl
@[simp] theorem State.endParse_restartInterval (s : State) (r : ParseState) (c : Cause) : (s.endParse r c).restartInterval = s.restartInterval := rfl
@[simp] theorem State.endParse_headerLen (s : State) (r : ParseState) (c : Cause) : (s.endParse r c).headerLen = s.headerLen := rfl
@[simp] theorem State.endParse_scanOff (s : State) (r : ParseState) (c : Cause) : (s.endParse r c).scanOff = s.scanOff := rfl
@[simp] theorem State.endParse_scanLen (s : State) (r : ParseState) (c : Cause) : (s.endParse r c).scanLen = s.scanLen := rfl
@[simp] theorem State.endParse_qfactor (s : State) (r : ParseState) (c : Cause) : (s.endParse r c).qfactor = s.qfactor := rfl
@[simp] theorem State.endParse_qt (s : State) (r : ParseState) (c : Cause) : (s.endParse r c).qt = s.qt := rfl

@[simp] theorem State.raiseFail_cont (s : State) (c : Cause) : (s.raiseFail c).cont = s.cont := rfl
@[simp] theorem State.raiseFail_size (s : State) (c : Cause) : (s.raiseFail c).size = s.size := rfl
@[simp] theorem State.raiseFail_state (s : State) (c : Cause) : (s.raiseFail c).state = .fail := rfl
@[simp] theorem State.raiseFail_cause (s : State) (c : Cause) : (s.raiseFail c).cause = c := rfl
@[simp] theorem State.raiseFail_offset (s : State) (c : Cause) : (s.raiseFail c).offset = s.offset := rfl
@[simp] theorem State.raiseFail_sofFound (s : State) (c : Cause) : (s.raiseFail c).sofFound = s.sofFound := rfl
@[simp] theorem State.raiseFail_dqtFound (s : State) (c : Cause) : (s.raiseFail c).dqtFound = s.dqtFound := rfl
@[simp] theorem State.raiseFail_sosFound (s : State) (c : Cause) : (s.raiseFail c).sosFound = s.sosFound := rfl
@[simp] theorem State.raiseFail_driFound (s : State) (c : Cause) : (s.raiseFail c).driFound = s.driFound := rfl
@[simp] theorem State.raiseFail_eoiSeen (s : State) (c : Cause) : (s.raiseFail c).eoiSeen = s.eoiSeen := rfl
@[simp] theorem State.raiseFail_widthBlocks (s : State) (c : Cause) : (s.raiseFail c).widthBlocks = s.widthBlocks := rfl
@[simp] theorem State.raiseFail_heightBlocks (s : State) (c : Cause) : (s.raiseFail c).heightBlocks = s.heightBlocks := rfl
@[simp] theorem State.raiseFail_type (s : State) (c : Cause) : (s.raiseFail c).type = s.type := rfl
@[simp] theorem State.raiseFail_precision (s : State) (c : Cause) : (s.raiseFail c).precision = s.precision := rfl
@[simp] theorem State.raiseFail_restartInterval (s : State) (c : Cause) : (s.raiseFail c).restartInterval = s.restartInterval := rfl
@[simp] theorem State.raiseFail_headerLen (s : State) (c : Cause) : (s.raiseFail c).headerLen = s.headerLen := rfl
@[simp] theorem State.raiseFail_scanOff (s : State) (c : Cause) : (s.raiseFail c).scanOff = s.scanOff := rfl
@[simp] theorem State.raiseFail_scanLen (s : State) (c : Cause) : (s.raiseFail c).scanLen = s.scanLen := rfl
@[simp] theorem State.raiseFail_qfactor (s : State) (c : Cause) : (s.raiseFail c).qfactor = s.qfactor := rfl
@[simp] theorem State.raiseFail_qt (s : State) (c : Cause) : (s.raiseFail c).qt = s.qt := rfl

@[simp] theorem State.raiseFault_cont (s : State) (c : Cause) : (s.raiseFault c).cont = s.cont := rfl
@[simp] theorem State.raiseFault_size (s : State) (c : Cause) : (s.raiseFault c).size = s.size := rfl
@[simp] theorem State.raiseFault_state (s : State) (c : Cause) : (s.raiseFault c).state = .fault := rfl
@[simp] theorem State.raiseFault_cause (s : State) (c : Cause) : (s.raiseFault c).cause = c := rfl
@[simp] theorem State.raiseFault_offset (s : State) (c : Cause) : (s.raiseFault c).offset = s.offset := rfl
@[simp] theorem State.raiseFault_sofFound (s : State) (c : Cause) : (s.raiseFault c).sofFound = s.sofFound := rfl
@[simp] theorem State.raiseFault_dqtFound (s : State) (c : Cause) : (s.raiseFault c).dqtFound = s.dqtFound := rfl
@[simp] theorem State.raiseFault_sosFound (s : State) (c : Cause) : (s.raiseFault c).sosFound = s.sosFound := rfl
@[simp] theorem State.raiseFault_driFound (s : State) (c : Cause) : (s.raiseFault c).driFound = s.driFound := rfl
@[simp] theorem State.raiseFault_eoiSeen (s : State) (c : Cause) : (s.raiseFault c).eoiSeen = s.eoiSeen := rfl
@[simp] theorem State.raiseFault_widthBlocks (s : State) (c : Cause) : (s.raiseFault c).widthBlocks = s.widthBlocks := rfl
@[simp] theorem State.raiseFault_heightBlocks (s : State) (c : Cause) : (s.raiseFault c).heightBlocks = s.heightBlocks := rfl
@[simp] theorem State.raiseFault_type (s : State) (c : Cause) : (s.raiseFault c).type = s.type := rfl
@[simp] theorem State.raiseFault_precision (s : State) (c : Cause) : (s.raiseFault c).precision = s.precision := rfl
@[simp] theorem State.raiseFault_restartInterval (s : State) (c : Cause) : (s.raiseFault c).restartInterval = s.restartInterval := rfl
@[simp] theorem State.raiseFault_headerLen (s : State) (c : Cause) : (s.raiseFault c).headerLen = s.headerLen := rfl
@[simp] theorem State.raiseFault_scanOff (s : State) (c : Cause) : (s.raiseFault c).scanOff = s.scanOff := rfl
@[simp] theorem State.raiseFault_scanLen (s : State) (c : Cause) : (s.raiseFault c).scanLen = s.scanLen := rfl
@[simp] theorem State.raiseFault_qfactor (s : State) (c : Cause) : (s.raiseFault c).qfactor = s.qfactor := rfl
@[simp] theorem State.raiseFault_qt (s : State) (c : Cause) : (s.raiseFault c).qt = s.qt := rfl

@[simp] theorem State.setPrecision_cont (s : State) (p : BitVec 1) : (s.setPrecision p).cont = s.cont := rfl
@[simp] theorem State.setPrecision_size (s : State) (p : BitVec 1) : (s.setPrecision p).size = s.size := rfl
@[simp] theorem State.setPrecision_state (s : State) (p : BitVec 1) : (s.setPrecision p).state = s.state := rfl
@[simp] theorem State.setPrecision_cause (s : State) (p : BitVec 1) : (s.setPrecision p).cause = s.cause := rfl
@[simp] theorem State.setPrecision_offset (s : State) (p : BitVec 1) : (s.setPrecision p).offset = s.offset := rfl
@[simp] theorem State.setPrecision_sofFound (s : State) (p : BitVec 1) : (s.setPrecision p).sofFound = s.sofFound := rfl
@[simp] theorem State.setPrecision_dqtFound (s : State) (p : BitVec 1) : (s.setPrecision p).dqtFound = s.dqtFound := rfl
@[simp] theorem State.setPrecision_sosFound (s : State) (p : BitVec 1) : (s.setPrecision p).sosFound = s.sosFound := rfl
@[simp] theorem State.setPrecision_driFound (s : State) (p : BitVec 1) : (s.setPrecision p).driFound = s.driFound := rfl
@[simp] theorem State.setPrecision_eoiSeen (s : State) (p : BitVec 1) : (s.setPrecision p).eoiSeen = s.eoiSeen := rfl
@[simp] theorem State.setPrecision_widthBlocks (s : State) (p : BitVec 1) : (s.setPrecision p).widthBlocks = s.widthBlocks := rfl
@[simp] theorem State.setPrecision_heightBlocks (s : State) (p : BitVec 1) : (s.setPrecision p).heightBlocks = s.heightBlocks := rfl
@[simp] theorem State.setPrecision_type (s : State) (p : BitVec 1) : (s.setPrecision p).type = s.type := rfl
@[simp] theorem State.setPrecision_precision (s : State) (p : BitVec 1) : (s.setPrecision p).precision = p := rfl
@[simp] theorem State.setPrecision_restartInterval (s : State) (p : BitVec 1) : (s.setPrecision p).restartInterval = s.restartInterval := rfl
@[simp] theorem State.setPrecision_headerLen (s : State) (p : BitVec 1) : (s.setPrecision p).headerLen = s.headerLen := rfl
@[simp] theorem State.setPrecision_scanOff (s : State) (p : BitVec 1) : (s.setPrecision p).scanOff = s.scanOff := rfl
@[simp] theorem State.setPrecision_scanLen (s : State) (p : BitVec 1) : (s.setPrecision p).scanLen = s.scanLen := rfl
@[simp] theorem State.setPrecision_qfactor (s : State) (p : BitVec 1) : (s.setPrecision p).qfactor = s.qfactor := rfl
@[simp] theorem State.setPrecision_qt (s : State) (p : BitVec 1) : (s.setPrecision p).qt = s.qt := rfl

@[simp] theorem State.setBlocks_cont (s : State) (w h : Byte) : (s.setBlocks w h).cont = s.cont := rfl
@[simp] theorem State.setBlocks_size (s : State) (w h : Byte) : (s.setBlocks w h).size = s.size := rfl
@[simp] theorem State.setBlocks_state (s : State) (w h : Byte) : (s.setBlocks w h).state = s.state := rfl
@[simp] theorem State.setBlocks_cause (s : State) (w h : Byte) : (s.setBlocks w h).cause = s.cause := rfl
@[simp] theorem State.setBlocks_offset (s : State) (w h : Byte) : (s.setBlocks w h).offset = s.offset := rfl
@[simp] theorem State.setBlocks_sofFound (s : State) (w h : Byte) : (s.setBlocks w h).sofFound = s.sofFound := rfl
@[simp] theorem State.setBlocks_dqtFound (s : State) (w h : Byte) : (s.setBlocks w h).dqtFound = s.dqtFound := rfl
@[simp] theorem State.setBlocks_sosFound (s : State) (w h : Byte) : (s.setBlocks w h).sosFound = s.sosFound := rfl
@[simp] theorem State.setBlocks_driFound (s : State) (w h : Byte) : (s.setBlocks w h).driFound = s.driFound := rfl
@[simp] theorem State.setBlocks_eoiSeen (s : State) (w h : Byte) : (s.setBlocks w h).eoiSeen = s.eoiSeen := rfl
@[simp] theorem State.setBlocks_widthBlocks (s : State) (w h : Byte) : (s.setBlocks w h).widthBlocks = w := rfl
@[simp] theorem State.setBlocks_heightBlocks (s : State) (w h : Byte) : (s.setBlocks w h).heightBlocks = h := rfl
@[simp] theorem State.setBlocks_type (s : State) (w h : Byte) : (s.setBlocks w h).type = s.type := rfl
@[simp] theorem State.setBlocks_precision (s : State) (w h : Byte) : (s.setBlocks w h).precision = s.precision := rfl
@[simp] theorem State.setBlocks_restartInterval (s : State) (w h : Byte) : (s.setBlocks w h).restartInterval = s.restartInterval := rfl
@[simp] theorem State.setBlocks_headerLen (s : State) (w h : Byte) : (s.setBlocks w h).headerLen = s.headerLen := rfl
@[simp] theorem State.setBlocks_scanOff (s : State) (w h : Byte) : (s.setBlocks w h).scanOff = s.scanOff := rfl
@[simp] theorem State.setBlocks_scanLen (s : State) (w h : Byte) : (s.setBlocks w h).scanLen = s.scanLen := rfl
@[simp] theorem State.setBlocks_qfactor (s : State) (w h : Byte) : (s.setBlocks w h).qfactor = s.qfactor := rfl
@[simp] theorem State.setBlocks_qt (s : State) (w h : Byte) : (s.setBlocks w h).qt = s.qt := rfl

@[simp] theorem State.setType_cont (s : State) (t : Byte) : (s.setType t).cont = s.cont := rfl
@[simp] theorem State.setType_size (s : State) (t : Byte) : (s.setType t).size = s.size := rfl
@[simp] theorem State.setType_state (s : State) (t : Byte) : (s.setType t).state = s.state := rfl
@[simp] theorem State.setType_cause (s : State) (t : Byte) : (s.setType t).cause = s.cause := rfl
@[simp] theorem State.setType_offset (s : State) (t : Byte) : (s.setType t).offset = s.offset := rfl
@[simp] theorem State.setType_sofFound (s : State) (t : Byte) : (s.setType t).sofFound = s.sofFound := rfl
@[simp] theorem State.setType_dqtFound (s : State) (t : Byte) : (s.setType t).dqtFound = s.dqtFound := rfl
@[simp] theorem State.setType_sosFound (s : State) (t : Byte) : (s.setType t).sosFound = s.sosFound := rfl
@[simp] theorem State.setType_driFound (s : State) (t : Byte) : (s.setType t).driFound = s.driFound := rfl
@[simp] theorem State.setType_eoiSeen (s : State) (t : Byte) : (s.setType t).eoiSeen = s.eoiSeen := rfl
@[simp] theorem State.setType_widthBlocks (s : State) (t : Byte) : (s.setType t).widthBlocks = s.widthBlocks := rfl
@[simp] theorem State.setType_heightBlocks (s : State) (t : Byte) : (s.setType t).heightBlocks = s.heightBlocks := rfl
@[simp] theorem State.setType_type (s : State) (t : Byte) : (s.setType t).type = t := rfl
@[simp] theorem State.setType_precision (s : State) (t : Byte) : (s.setType t).precision = s.precision := rfl
@[simp] theorem State.setType_restartInterval (s : State) (t : Byte) : (s.setType t).restartInterval = s.restartInterval := rfl
@[simp] theorem State.setType_headerLen (s : State) (t : Byte) : (s.setType t).headerLen = s.headerLen := rfl
@[simp] theorem State.setType_scanOff (s : State) (t : Byte) : (s.setType t).scanOff = s.scanOff := rfl
@[simp] theorem State.setType_scanLen (s : State) (t : Byte) : (s.setType t).scanLen = s.scanLen := rfl
@[simp] theorem State.setType_qfactor (s : State) (t : Byte) : (s.setType t).qfactor = s.qfactor := rfl
@[simp] theorem State.setType_qt (s : State) (t : Byte) : (s.setType t).qt = s.qt := rfl

@[simp] theorem State.setHeaderLen_cont (s : State) (n : Nat) : (s.setHeaderLen n).cont = s.cont := rfl
@[simp] theorem State.setHeaderLen_size (s : State) (n : Nat) : (s.setHeaderLen n).size = s.size := rfl
@[simp] theorem State.setHeaderLen_state (s : State) (n : Nat) : (s.setHeaderLen n).state = s.state := rfl
@[simp] theorem State.setHeaderLen_cause (s : State) (n : Nat) : (s.setHeaderLen n).cause = s.cause := rfl
@[simp] theorem State.setHeaderLen_offset (s : State) (n : Nat) : (s.setHeaderLen n).offset = s.offset := rfl
@[simp] theorem State.setHeaderLen_sofFound (s : State) (n : Nat) : (s.setHeaderLen n).sofFound = s.sofFound := rfl
@[simp] theorem State.setHeaderLen_dqtFound (s : State) (n : Nat) : (s.setHeaderLen n).dqtFound = s.dqtFound := rfl
@[simp] theorem State.setHeaderLen_sosFound (s : State) (n : Nat) : (s.setHeaderLen n).sosFound = s.sosFound := rfl
@[simp] theorem State.setHeaderLen_driFound (s : State) (n : Nat) : (s.setHeaderLen n).driFound = s.driFound := rfl
@[simp] theorem State.setHeaderLen_eoiSeen (s : State) (n : Nat) : (s.setHeaderLen n).eoiSeen = s.eoiSeen := rfl
@[simp] theorem State.setHeaderLen_widthBlocks (s : State) (n : Nat) : (s.setHeaderLen n).widthBlocks = s.widthBlocks := rfl
@[simp] theorem State.setHeaderLen_heightBlocks (s : State) (n : Nat) : (s.setHeaderLen n).heightBlocks = s.heightBlocks := rfl
@[simp] theorem State.setHeaderLen_type (s : State) (n : Nat) : (s.setHeaderLen n).type = s.type := rfl
@[simp] theorem State.setHeaderLen_precision (s : State) (n : Nat) : (s.setHeaderLen n).precision = s.precision := rfl
@[simp] theorem State.setHeaderLen_restartInterval (s : State) (n : Nat) : (s.setHeaderLen n).restartInterval = s.restartInterval := rfl
@[simp] theorem State.setHeaderLen_headerLen (s : State) (n : Nat) : (s.setHeaderLen n).headerLen = BitVec.ofNat 32 n := rfl
@[simp] theorem State.setHeaderLen_scanOff (s : State) (n : Nat) : (s.setHeaderLen n).scanOff = s.scanOff := rfl
@[simp] theorem State.setHeaderLen_scanLen (s : State) (n : Nat) : (s.setHeaderLen n).scanLen = s.scanLen := rfl
@[simp] theorem State.setHeaderLen_qfactor (s : State) (n : Nat) : (s.setHeaderLen n).qfactor = s.qfactor := rfl
@[simp] theorem State.setHeaderLen_qt (s : State) (n : Nat) : (s.setHeaderLen n).qt = s.qt := rfl

@[simp] theorem State.setSofFound_cont (s : State) : s.setSofFound.cont = s.cont := rfl
@[simp] theorem State.setSofFound_size (s : State) : s.setSofFound.size = s.size := rfl
@[simp] theorem State.setSofFound_state (s : State) : s.setSofFound.state = s.state := rfl
@[simp] theorem State.setSofFound_cause (s : State) : s.setSofFound.cause = s.cause := rfl
@[simp] theorem State.setSofFound_offset (s : State) : s.setSofFound.offset = s.offset := rfl
@[simp] theorem State.setSofFound_sofFound (s : State) : s.setSofFound.sofFound = true := rfl
@[simp] theorem State.setSofFound_dqtFound (s : State) : s.setSofFound.dqtFound = s.dqtFound := rfl
@[simp] theorem State.setSofFound_sosFound (s : State) : s.setSofFound.sosFound = s.sosFound := rfl
@[simp] theorem State.setSofFound_driFound (s : State) : s.setSofFound.driFound = s.driFound := rfl
@[simp] theorem State.setSofFound_eoiSeen (s : State) : s.setSofFound.eoiSeen = s.eoiSeen := rfl
@[simp] theorem State.setSofFound_widthBlocks (s : State) : s.setSofFound.widthBlocks = s.widthBlocks := rfl
@[simp] theorem State.setSofFound_heightBlocks (s : State) : s.setSofFound.heightBlocks = s.heightBlocks := rfl
@[simp] theorem State.setSofFound_type (s : State) : s.setSofFound.type = s.type := rfl
@[simp] theorem State.setSofFound_precision (s : State) : s.setSofFound.precision = s.precision := rfl
@[simp] theorem State.setSofFound_restartInterval (s : State) : s.setSofFound.restartInterval = s.restartInterval := rfl
@[simp] theorem State.setSofFound_headerLen (s : State) : s.setSofFound.headerLen = s.headerLen := rfl
@[simp] theorem State.setSofFound_scanOff (s : State) : s.setSofFound.scanOff = s.scanOff := rfl
@[simp] theorem State.setSofFound_scanLen (s : State) : s.setSofFound.scanLen = s.scanLen := rfl
@[simp] theorem State.setSofFound_qfactor (s : State) : s.setSofFound.qfactor = s.qfactor := rfl
@[simp] theorem State.setSofFound_qt (s : State) : s.setSofFound.qt = s.qt := rfl

@[simp] theorem State.setDqtFound_cont (s : State) : s.setDqtFound.cont = s.cont := rfl
@[simp] theorem State.setDqtFound_size (s : State) : s.setDqtFound.size = s.size := rfl
@[simp] theorem State.setDqtFound_state (s : State) : s.setDqtFound.state = s.state := rfl
@[simp] theorem State.setDqtFound_cause (s : State) : s.setDqtFound.cause = s.cause := rfl
@[simp] theorem State.setDqtFound_offset (s : State) : s.setDqtFound.offset = s.offset := rfl
@[simp] theorem State.setDqtFound_sofFound (s : State) : s.setDqtFound.sofFound = s.sofFound := rfl
@[simp] theorem State.setDqtFound_dqtFound (s : State) : s.setDqtFound.dqtFound = true := rfl
@[simp] theorem State.setDqtFound_sosFound (s : State) : s.setDqtFound.sosFound = s.sosFound := rfl
@[simp] theorem State.setDqtFound_driFound (s : State) : s.setDqtFound.driFound = s.driFound := rfl
@[simp] theorem State.setDqtFound_eoiSeen (s : State) : s.setDqtFound.eoiSeen = s.eoiSeen := rfl
@[simp] theorem State.setDqtFound_widthBlocks (s : State) : s.setDqtFound.widthBlocks = s.widthBlocks := rfl
@[simp] theorem State.setDqtFound_heightBlocks (s : State) : s.setDqtFound.heightBlocks = s.heightBlocks := rfl
@[simp] theorem State.setDqtFound_type (s : State) : s.setDqtFound.type = s.type := rfl
@[simp] theorem State.setDqtFound_precision (s : State) : s.setDqtFound.precision = s.precision := rfl
@[simp] theorem State.setDqtFound_restartInterval (s : State) : s.setDqtFound.restartInterval = s.restartInterval := rfl
@[simp] theorem State.setDqtFound_headerLen (s : State) : s.setDqtFound.headerLen = s.headerLen := rfl
@[simp] theorem State.setDqtFound_scanOff (s : State) : s.setDqtFound.scanOff = s.scanOff := rfl
@[simp] theorem State.setDqtFound_scanLen (s : State) : s.setDqtFound.scanLen = s.scanLen := rfl
@[simp] theorem State.setDqtFound_qfactor (s : State) : s.setDqtFound.qfactor = s.qfactor := rfl
@[simp] theorem State.setDqtFound_qt (s : State) : s.setDqtFound.qt = s.qt := rfl

@[simp] theorem State.setSosFound_cont (s : State) : s.setSosFound.cont = s.cont := rfl
@[simp] theorem State.setSosFound_size (s : State) : s.setSosFound.size = s.size := rfl
@[simp] theorem State.setSosFound_state (s : State) : s.setSosFound.state = s.state := rfl
@[simp] theorem State.setSosFound_cause (s : State) : s.setSosFound.cause = s.cause := rfl
@[simp] theorem State.setSosFound_offset (s : State) : s.setSosFound.offset = s.offset := rfl
@[simp] theorem State.setSosFound_sofFound (s : State) : s.setSosFound.sofFound = s.sofFound := rfl
@[simp] theorem State.setSosFound_dqtFound (s : State) : s.setSosFound.dqtFound = s.dqtFound := rfl
@[simp] theorem State.setSosFound_sosFound (s : State) : s.setSosFound.sosFound = true := rfl
@[simp] theorem State.setSosFound_driFound (s : State) : s.setSosFound.driFound = s.driFound := rfl
@[simp] theorem State.setSosFound_eoiSeen (s : State) : s.setSosFound.eoiSeen = s.eoiSeen := rfl
@[simp] theorem State.setSosFound_widthBlocks (s : State) : s.setSosFound.widthBlocks = s.widthBlocks := rfl
@[simp] theorem State.setSosFound_heightBlocks (s : State) : s.setSosFound.heightBlocks = s.heightBlocks := rfl
@[simp] theorem State.setSosFound_type (s : State) : s.setSosFound.type = s.type := rfl
@[simp] theorem State.setSosFound_precision (s : State) : s.setSosFound.precision = s.precision := rfl
@[simp] theorem State.setSosFound_restartInterval (s : State) : s.setSosFound.restartInterval = s.restartInterval := rfl
@[simp] theorem State.setSosFound_headerLen (s : State) : s.setSosFound.headerLen = s.headerLen := rfl
@[simp] theorem State.setSosFound_scanOff (s : State) : s.setSosFound.scanOff = s.scanOff := rfl
@[simp] theorem State.setSosFound_scanLen (s : State) : s.setSosFound.scanLen = s.scanLen := rfl
@[simp] theorem State.setSosFound_qfactor (s : State) : s.setSosFound.qfactor = s.qfactor := rfl
@[simp] theorem State.setSosFound_qt (s : State) : s.setSosFound.qt = s.qt := rfl

@[simp] theorem State.setEoiSeen_cont (s : State) : s.setEoiSeen.cont = s.cont := rfl
@[simp] theorem State.setEoiSeen_size (s : State) : s.setEoiSeen.size = s.size := rfl
@[simp] theorem State.setEoiSeen_state (s : State) : s.setEoiSeen.state = s.state := rfl
@[simp] theorem State.setEoiSeen_cause (s : State) : s.setEoiSeen.cause = s.cause := rfl
@[simp] theorem State.setEoiSeen_offset (s : State) : s.setEoiSeen.offset = s.offset := rfl
@[simp] theorem State.setEoiSeen_sofFound (s : State) : s.setEoiSeen.sofFound = s.sofFound := rfl
@[simp] theorem State.setEoiSeen_dqtFound (s : State) : s.setEoiSeen.dqtFound = s.dqtFound := rfl
@[simp] theorem State.setEoiSeen_sosFound (s : State) : s.setEoiSeen.sosFound = s.sosFound := rfl
@[simp] theorem State.setEoiSeen_driFound (s : State) : s.setEoiSeen.driFound = s.driFound := rfl
@[simp] theorem State.setEoiSeen_eoiSeen (s : State) : s.setEoiSeen.eoiSeen = true := rfl
@[simp] theorem State.setEoiSeen_widthBlocks (s : State) : s.setEoiSeen.widthBlocks = s.widthBlocks := rfl
@[simp] theorem State.setEoiSeen_heightBlocks (s : State) : s.setEoiSeen.heightBlocks = s.heightBlocks := rfl
@[simp] theorem State.setEoiSeen_type (s : State) : s.setEoiSeen.type = s.type := rfl
@[simp] theorem State.setEoiSeen_precision (s : State) : s.setEoiSeen.precision = s.precision := rfl
@[simp] theorem State.setEoiSeen_restartInterval (s : State) : s.setEoiSeen.restartInterval = s.restartInterval := rfl
@[simp] theorem State.setEoiSeen_headerLen (s : State) : s.setEoiSeen.headerLen = s.headerLen := rfl
@[simp] theorem State.setEoiSeen_scanOff (s : State) : s.setEoiSeen.scanOff = s.scanOff := rfl
@[simp] theorem State.setEoiSeen_scanLen (s : State) : s.setEoiSeen.scanLen = s.scanLen := rfl
@[simp] theorem State.setEoiSeen_qfactor (s : State) : s.setEoiSeen.qfactor = s.qfactor := rfl
@[simp] theorem State.setEoiSeen_qt (s : State) : s.setEoiSeen.qt = s.qt := rfl

@[simp] theorem State.setRestart_cont (s : State) (v : Half) : (s.setRestart v).cont = s.cont := rfl
@[simp] theorem State.setRestart_size (s : State) (v : Half) : (s.setRestart v).size = s.size := rfl
@[simp] theorem State.setRestart_state (s : State) (v : Half) : (s.setRestart v).state = s.state := rfl
@[simp] theorem State.setRestart_cause (s : State) (v : Half) : (s.setRestart v).cause = s.cause := rfl
@[simp] theorem State.setRestart_offset (s : State) (v : Half) : (s.setRestart v).offset = s.offset := rfl
@[simp] theorem State.setRestart_sofFound (s : State) (v : Half) : (s.setRestart v).sofFound = s.sofFound := rfl
@[simp] theorem State.setRestart_dqtFound (s : State) (v : Half) : (s.setRestart v).dqtFound = s.dqtFound := rfl
@[simp] theorem State.setRestart_sosFound (s : State) (v : Half) : (s.setRestart v).sosFound = s.sosFound := rfl
@[simp] theorem State.setRestart_driFound (s : State) (v : Half) : (s.setRestart v).driFound = driFlag v := rfl
@[simp] theorem State.setRestart_eoiSeen (s : State) (v : Half) : (s.setRestart v).eoiSeen = s.eoiSeen := rfl
@[simp] theorem State.setRestart_widthBlocks (s : State) (v : Half) : (s.setRestart v).widthBlocks = s.widthBlocks := rfl
@[simp] theorem State.setRestart_heightBlocks (s : State) (v : Half) : (s.setRestart v).heightBlocks = s.heightBlocks := rfl
@[simp] theorem State.setRestart_type (s : State) (v : Half) : (s.setRestart v).type = s.type := rfl
@[simp] theorem State.setRestart_precision (s : State) (v : Half) : (s.setRestart v).precision = s.precision := rfl
@[simp] theorem State.setRestart_restartInterval (s : State) (v : Half) : (s.setRestart v).restartInterval = v := rfl
@[simp] theorem State.setRestart_headerLen (s : State) (v : Half) : (s.setRestart v).headerLen = s.headerLen := rfl
@[simp] theorem State.setRestart_scanOff (s : State) (v : Half) : (s.setRestart v).scanOff = s.scanOff := rfl
@[simp] theorem State.setRestart_scanLen (s : State) (v : Half) : (s.setRestart v).scanLen = s.scanLen := rfl
@[simp] theorem State.setRestart_qfactor (s : State) (v : Half) : (s.setRestart v).qfactor = s.qfactor := rfl
@[simp] theorem State.setRestart_qt (s : State) (v : Half) : (s.setRestart v).qt = s.qt := rfl

@[simp] theorem State.succeed_cont (s : State) : s.succeed.cont = s.cont := rfl
@[simp] theorem State.succeed_size (s : State) : s.succeed.size = s.size := rfl
@[simp] theorem State.succeed_state (s : State) : s.succeed.state = .ok := rfl
@[simp] theorem State.succeed_cause (s : State) : s.succeed.cause = s.cause := rfl
@[simp] theorem State.succeed_offset (s : State) : s.succeed.offset = s.offset := rfl
@[simp] theorem State.succeed_sofFound (s : State) : s.succeed.sofFound = s.sofFound := rfl
@[simp] theorem State.succeed_dqtFound (s : State) : s.succeed.dqtFound = s.dqtFound := rfl
@[simp] theorem State.succeed_sosFound (s : State) : s.succeed.sosFound = s.sosFound := rfl
@[simp] theorem State.succeed_driFound (s : State) : s.succeed.driFound = s.driFound := rfl
@[simp] theorem State.succeed_eoiSeen (s : State) : s.succeed.eoiSeen = s.eoiSeen := rfl
@[simp] theorem State.succeed_widthBlocks (s : State) : s.succeed.widthBlocks = s.widthBlocks := rfl
@[simp] theorem State.succeed_heightBlocks (s : State) : s.succeed.heightBlocks = s.heightBlocks := rfl
@[simp] theorem State.succeed_type (s : State) : s.succeed.type = if s.driFound then s.type + Config.typeRestart else s.type := rfl
@[simp] theorem State.succeed_precision (s : State) : s.succeed.precision = s.precision := rfl
@[simp] theorem State.succeed_restartInterval (s : State) : s.succeed.restartInterval = s.restartInterval := rfl
@[simp] theorem State.succeed_headerLen (s : State) : s.succeed.headerLen = s.headerLen := rfl
@[simp] theorem State.succeed_scanOff (s : State) : s.succeed.scanOff = s.headerLen := rfl
@[simp] theorem State.succeed_scanLen (s : State) : s.succeed.scanLen = BitVec.ofNat 32 (s.size.toNat - s.headerLen.toNat) := rfl
@[simp] theorem State.succeed_qfactor (s : State) : s.succeed.qfactor = s.qfactor := rfl
@[simp] theorem State.succeed_qt (s : State) : s.succeed.qt = s.qt := rfl

@[simp] theorem State.clearResults_cont (s : State) : s.clearResults.cont = s.cont := rfl
@[simp] theorem State.clearResults_size (s : State) : s.clearResults.size = s.size := rfl
@[simp] theorem State.clearResults_state (s : State) : s.clearResults.state = s.state := rfl
@[simp] theorem State.clearResults_cause (s : State) : s.clearResults.cause = .noCause := rfl
@[simp] theorem State.clearResults_offset (s : State) : s.clearResults.offset = 0 := rfl
@[simp] theorem State.clearResults_sofFound (s : State) : s.clearResults.sofFound = false := rfl
@[simp] theorem State.clearResults_dqtFound (s : State) : s.clearResults.dqtFound = false := rfl
@[simp] theorem State.clearResults_sosFound (s : State) : s.clearResults.sosFound = false := rfl
@[simp] theorem State.clearResults_driFound (s : State) : s.clearResults.driFound = false := rfl
@[simp] theorem State.clearResults_eoiSeen (s : State) : s.clearResults.eoiSeen = false := rfl
@[simp] theorem State.clearResults_widthBlocks (s : State) : s.clearResults.widthBlocks = 0 := rfl
@[simp] theorem State.clearResults_heightBlocks (s : State) : s.clearResults.heightBlocks = 0 := rfl
@[simp] theorem State.clearResults_type (s : State) : s.clearResults.type = 0 := rfl
@[simp] theorem State.clearResults_precision (s : State) : s.clearResults.precision = 0 := rfl
@[simp] theorem State.clearResults_restartInterval (s : State) : s.clearResults.restartInterval = 0 := rfl
@[simp] theorem State.clearResults_headerLen (s : State) : s.clearResults.headerLen = 0 := rfl
@[simp] theorem State.clearResults_scanOff (s : State) : s.clearResults.scanOff = 0 := rfl
@[simp] theorem State.clearResults_scanLen (s : State) : s.clearResults.scanLen = 0 := rfl
@[simp] theorem State.clearResults_qfactor (s : State) : s.clearResults.qfactor = s.qfactor := rfl
@[simp] theorem State.clearResults_qt (s : State) : s.clearResults.qt = [] := rfl

@[simp] theorem State.setOffset_u8 (s : State) (n : Nat) (a : Nat) : (s.setOffset n).u8 a = s.u8 a := rfl
@[simp] theorem State.setOffset_be16 (s : State) (n : Nat) (a : Nat) : (s.setOffset n).be16 a = s.be16 a := rfl
@[simp] theorem State.setQtByte_o (s : State) (i : Nat) (v : Byte) : (s.setQtByte i v).o = s.o := rfl
@[simp] theorem State.setQtByte_u8 (s : State) (i : Nat) (v : Byte) (a : Nat) : (s.setQtByte i v).u8 a = s.u8 a := rfl
@[simp] theorem State.setQtByte_be16 (s : State) (i : Nat) (v : Byte) (a : Nat) : (s.setQtByte i v).be16 a = s.be16 a := rfl
@[simp] theorem State.endParse_o (s : State) (r : ParseState) (c : Cause) : (s.endParse r c).o = s.o := rfl
@[simp] theorem State.endParse_u8 (s : State) (r : ParseState) (c : Cause) (a : Nat) : (s.endParse r c).u8 a = s.u8 a := rfl
@[simp] theorem State.endParse_be16 (s : State) (r : ParseState) (c : Cause) (a : Nat) : (s.endParse r c).be16 a = s.be16 a := rfl
@[simp] theorem State.raiseFail_o (s : State) (c : Cause) : (s.raiseFail c).o = s.o := rfl
@[simp] theorem State.raiseFail_u8 (s : State) (c : Cause) (a : Nat) : (s.raiseFail c).u8 a = s.u8 a := rfl
@[simp] theorem State.raiseFail_be16 (s : State) (c : Cause) (a : Nat) : (s.raiseFail c).be16 a = s.be16 a := rfl
@[simp] theorem State.raiseFault_o (s : State) (c : Cause) : (s.raiseFault c).o = s.o := rfl
@[simp] theorem State.raiseFault_u8 (s : State) (c : Cause) (a : Nat) : (s.raiseFault c).u8 a = s.u8 a := rfl
@[simp] theorem State.raiseFault_be16 (s : State) (c : Cause) (a : Nat) : (s.raiseFault c).be16 a = s.be16 a := rfl
@[simp] theorem State.setPrecision_o (s : State) (p : BitVec 1) : (s.setPrecision p).o = s.o := rfl
@[simp] theorem State.setPrecision_u8 (s : State) (p : BitVec 1) (a : Nat) : (s.setPrecision p).u8 a = s.u8 a := rfl
@[simp] theorem State.setPrecision_be16 (s : State) (p : BitVec 1) (a : Nat) : (s.setPrecision p).be16 a = s.be16 a := rfl
@[simp] theorem State.setBlocks_o (s : State) (w h : Byte) : (s.setBlocks w h).o = s.o := rfl
@[simp] theorem State.setBlocks_u8 (s : State) (w h : Byte) (a : Nat) : (s.setBlocks w h).u8 a = s.u8 a := rfl
@[simp] theorem State.setBlocks_be16 (s : State) (w h : Byte) (a : Nat) : (s.setBlocks w h).be16 a = s.be16 a := rfl
@[simp] theorem State.setType_o (s : State) (t : Byte) : (s.setType t).o = s.o := rfl
@[simp] theorem State.setType_u8 (s : State) (t : Byte) (a : Nat) : (s.setType t).u8 a = s.u8 a := rfl
@[simp] theorem State.setType_be16 (s : State) (t : Byte) (a : Nat) : (s.setType t).be16 a = s.be16 a := rfl
@[simp] theorem State.setHeaderLen_o (s : State) (n : Nat) : (s.setHeaderLen n).o = s.o := rfl
@[simp] theorem State.setHeaderLen_u8 (s : State) (n : Nat) (a : Nat) : (s.setHeaderLen n).u8 a = s.u8 a := rfl
@[simp] theorem State.setHeaderLen_be16 (s : State) (n : Nat) (a : Nat) : (s.setHeaderLen n).be16 a = s.be16 a := rfl
@[simp] theorem State.setSofFound_o (s : State) : s.setSofFound.o = s.o := rfl
@[simp] theorem State.setSofFound_u8 (s : State) (a : Nat) : s.setSofFound.u8 a = s.u8 a := rfl
@[simp] theorem State.setSofFound_be16 (s : State) (a : Nat) : s.setSofFound.be16 a = s.be16 a := rfl
@[simp] theorem State.setDqtFound_o (s : State) : s.setDqtFound.o = s.o := rfl
@[simp] theorem State.setDqtFound_u8 (s : State) (a : Nat) : s.setDqtFound.u8 a = s.u8 a := rfl
@[simp] theorem State.setDqtFound_be16 (s : State) (a : Nat) : s.setDqtFound.be16 a = s.be16 a := rfl
@[simp] theorem State.setSosFound_o (s : State) : s.setSosFound.o = s.o := rfl
@[simp] theorem State.setSosFound_u8 (s : State) (a : Nat) : s.setSosFound.u8 a = s.u8 a := rfl
@[simp] theorem State.setSosFound_be16 (s : State) (a : Nat) : s.setSosFound.be16 a = s.be16 a := rfl
@[simp] theorem State.setEoiSeen_o (s : State) : s.setEoiSeen.o = s.o := rfl
@[simp] theorem State.setEoiSeen_u8 (s : State) (a : Nat) : s.setEoiSeen.u8 a = s.u8 a := rfl
@[simp] theorem State.setEoiSeen_be16 (s : State) (a : Nat) : s.setEoiSeen.be16 a = s.be16 a := rfl
@[simp] theorem State.setRestart_o (s : State) (v : Half) : (s.setRestart v).o = s.o := rfl
@[simp] theorem State.setRestart_u8 (s : State) (v : Half) (a : Nat) : (s.setRestart v).u8 a = s.u8 a := rfl
@[simp] theorem State.setRestart_be16 (s : State) (v : Half) (a : Nat) : (s.setRestart v).be16 a = s.be16 a := rfl
@[simp] theorem State.succeed_o (s : State) : s.succeed.o = s.o := rfl
@[simp] theorem State.succeed_u8 (s : State) (a : Nat) : s.succeed.u8 a = s.u8 a := rfl
@[simp] theorem State.succeed_be16 (s : State) (a : Nat) : s.succeed.be16 a = s.be16 a := rfl
@[simp] theorem State.clearResults_u8 (s : State) (a : Nat) : s.clearResults.u8 a = s.u8 a := rfl
@[simp] theorem State.clearResults_be16 (s : State) (a : Nat) : s.clearResults.be16 a = s.be16 a := rfl

@[simp] theorem State.clearResults_o (s : State) : s.clearResults.o = 0 := rfl

/-- `offset` after a write, where the value fits 32 bits (R15). -/
theorem State.setOffset_o (s : State) {n : Nat} (h : n < 2 ^ 32) : (s.setOffset n).o = n := by
  simp only [State.o, State.setOffset_offset, BitVec.toNat_ofNat]
  exact Nat.mod_eq_of_lt h

/-- Setting `offset` twice leaves the later value. -/
@[simp] theorem State.setOffset_setOffset (s : State) (m n : Nat) : (s.setOffset m).setOffset n = s.setOffset n := rfl

end Sys2Proof.Machine
end

