-- ==== Sys2Proof/Laws/Ops.lean ====
section
/-! SUPPORT. What each shared operation can do, said once: the reads, sequencing, the table store, `Skip`, the operand
readings of SOF0, and the marker search. -/

namespace Sys2Proof.Machine

/-! ### Sequencing -/

/-- A sequence that answers a next state went through one. -/
theorem andThen_eq_next {r : Result} {k : State → Result} {t : State} :
    andThen r k = .next t ↔ ∃ s, r = .next s ∧ k s = .next t := by
  cases r <;> simp [andThen]

@[simp] theorem andThen_next (s : State) (k : State → Result) : andThen (.next s) k = k s := rfl

/-! ### Reads of the Container -/

theorem State.u8_of_lt {s : State} {a : Nat} (h : a < s.size.toNat) : s.u8 a = s.cont.read a := if_pos h

theorem State.u8_of_le {s : State} {a : Nat} (h : s.size.toNat ≤ a) : s.u8 a = none := if_neg (by omega)

/-- A byte that is read stands below `size` (R62). -/
theorem State.lt_size_of_u8 {s : State} {a : Nat} {b : Byte} (h : s.u8 a = some b) : a < s.size.toNat := by
  by_contra hn
  rw [State.u8_of_le (by omega)] at h
  cases h

theorem State.u8_congr {s t : State} (hc : t.cont = s.cont) (hs : t.size = s.size) : t.u8 = s.u8 := by
  funext a
  simp only [State.u8, hc, hs]

theorem State.be16_congr {s t : State} (hc : t.cont = s.cont) (hs : t.size = s.size) : t.be16 = s.be16 := by
  funext a
  simp only [State.be16, State.u8_congr hc hs]

@[simp] theorem be_toNat (hi lo : Byte) : (be hi lo).toNat = hi.toNat * 256 + lo.toNat := by
  simp only [be, BitVec.toNat_ofNat]
  have := hi.isLt
  have := lo.isLt
  omega

/-- A 16-bit field is read exactly where both its bytes are, the byte at the lower address the more significant (R63). -/
theorem State.be16_eq_some {s : State} {a : Nat} {h : Half} :
    s.be16 a = some h ↔ ∃ hi lo, s.u8 a = some hi ∧ s.u8 (a + 1) = some lo ∧ h = be hi lo := by
  unfold State.be16
  cases h1 : s.u8 a <;> cases h2 : s.u8 (a + 1) <;> simp [eq_comm]

/-- Where every byte is readable, a field inside the buffer is. -/
theorem State.Readable.be16 {s : State} (hr : s.Readable) {a : Nat} (h : a + 2 ≤ s.size.toNat) :
    ∃ v, s.be16 a = some v := by
  obtain ⟨hi, h1⟩ := Option.isSome_iff_exists.1 (hr a (by omega))
  obtain ⟨lo, h2⟩ := Option.isSome_iff_exists.1 (hr (a + 1) (by omega))
  exact ⟨_, State.be16_eq_some.2 ⟨hi, lo, h1, h2, rfl⟩⟩

theorem State.Readable.u8 {s : State} (hr : s.Readable) {a : Nat} (h : a < s.size.toNat) : ∃ b, s.u8 a = some b :=
  Option.isSome_iff_exists.1 (hr a h)

theorem State.Readable.congr {s t : State} (hr : s.Readable) (hc : t.cont = s.cont) (hs : t.size = s.size) :
    t.Readable := by
  intro a ha
  rw [State.u8_congr hc hs]
  exact hr a (hs ▸ ha)

/-- A Container that is loaded up to `size` is readable up to `size`. -/
theorem State.ContFull.readable {s : State} (h : s.ContFull) : s.Readable := by
  intro a ha
  rw [State.u8_of_lt ha, Memory.isSome_read, h]
  exact List.mem_range.2 ha

theorem withU8_of_some {s : State} {a : Nat} {b : Byte} (h : s.u8 a = some b) (k : Byte → Result) :
    withU8 s a k = k b := by
  simp only [withU8, h]

theorem withBE16_of_some {s : State} {a : Nat} {v : Half} (h : s.be16 a = some v) (k : Half → Result) :
    withBE16 s a k = k v := by
  simp only [withBE16, h]

/-- A read that answers a next state read a byte. -/
theorem withU8_eq_next {s t : State} {a : Nat} {k : Byte → Result} (h : withU8 s a k = .next t) :
    ∃ b, s.u8 a = some b ∧ k b = .next t := by
  unfold withU8 at h
  split at h
  · exact ⟨_, ‹_›, h⟩
  · cases h

/-- A 16-bit read that answers a next state read a field. -/
theorem withBE16_eq_next {s t : State} {a : Nat} {k : Half → Result} (h : withBE16 s a k = .next t) :
    ∃ v, s.be16 a = some v ∧ k v = .next t := by
  unfold withBE16 at h
  split at h
  · exact ⟨_, ‹_›, h⟩
  · cases h

/-! ### `Skip` -/

/-- All that `Skip` can do, where it answers a next state: only `offset` moves (R141). -/
theorem skip_eq_next {s t : State} (h : skip s = .next t) :
    (s.size.toNat < s.o + 2 ∧ t = s.setOffset s.size.toNat) ∨
    (s.o + 2 ≤ s.size.toNat ∧ ∃ len, s.be16 s.o = some len ∧ t = s.setOffset (s.o + len.toNat)) := by
  unfold skip at h
  split at h
  · exact .inl ⟨‹_›, by cases h; rfl⟩
  · obtain ⟨len, hl, ht⟩ := withBE16_eq_next h
    exact .inr ⟨by omega, len, hl, by cases ht; rfl⟩

/-! ### The table store -/

/-- All that a write of the table store can do (R65). -/
theorem writeQt_eq_next {s t : State} {i : Nat} {v : Byte} (h : writeQt s i v = .next t) :
    i < Config.qtCap ∧ t = s.setQtByte i v := by
  unfold writeQt at h
  split at h
  · exact ⟨‹_›, by cases h; rfl⟩
  · cases h

/-- All that a table copy can do, where it answers a next state: the bytes of the source stand at the destination, the
other registers are as before, and the destination is in range (R185). -/
theorem copyToQt_eq_next {n : Nat} {s t : State} {dst src : Nat} (h : copyToQt n s dst src = .next t) :
    ∃ bs : List Byte, bs.length = n ∧ (∀ k, k < n → s.u8 (src + k) = bs[k]?) ∧ (n = 0 ∨ dst + n ≤ Config.qtCap) ∧
      t = { s with qt := s.qt.writeBytes dst bs } := by
  induction n generalizing s dst src with
  | zero =>
    cases h
    exact ⟨[], rfl, by simp, .inl rfl, rfl⟩
  | succ n ih =>
    obtain ⟨b, hb, h⟩ := withU8_eq_next h
    obtain ⟨s', hw, h⟩ := andThen_eq_next.1 h
    obtain ⟨hlt, rfl⟩ := writeQt_eq_next hw
    obtain ⟨bs, hlen, hbs, hcap, rfl⟩ := ih h
    refine ⟨b :: bs, by simp [hlen], fun k hk => ?_, .inr (by omega), rfl⟩
    cases k with
    | zero => simpa using hb
    | succ k =>
      have := hbs k (by omega)
      rw [State.setQtByte_u8] at this
      rw [List.getElem?_cons_succ, ← this]
      congr 1
      omega

/-- A table copy completes where its source can be read and its destination is in range (R185). -/
theorem copyToQt_completes {n : Nat} {s : State} {dst src : Nat} (hsrc : ∀ k, k < n → (s.u8 (src + k)).isSome)
    (hdst : dst + n ≤ Config.qtCap) : ∃ t, copyToQt n s dst src = .next t := by
  induction n generalizing s dst src with
  | zero => exact ⟨s, rfl⟩
  | succ n ih =>
    obtain ⟨b, hb⟩ := Option.isSome_iff_exists.1 (hsrc 0 (by omega))
    obtain ⟨t, ht⟩ := ih (s := s.setQtByte dst b) (dst := dst + 1) (src := src + 1)
      (fun k hk => by
        have := hsrc (k + 1) (by omega)
        rwa [State.setQtByte_u8, show src + 1 + k = src + (k + 1) by omega]) (by omega)
    refine ⟨t, ?_⟩
    simp only [copyToQt]
    rw [withU8_of_some (by simpa using hb), writeQt, if_pos (by omega)]
    exact ht

/-! ### Operand readings of SOF0 -/

theorem State.component_eq_some {s : State} {a : Nat} {c : Component} :
    s.component a = some c ↔ s.u8 a = some c.id ∧ s.u8 (a + 1) = some c.samp ∧ s.u8 (a + 2) = some c.qt := by
  unfold State.component
  obtain ⟨i, p, q⟩ := c
  cases s.u8 a <;> cases s.u8 (a + 1) <;> cases s.u8 (a + 2) <;> simp

theorem State.Readable.component {s : State} (hr : s.Readable) {a : Nat} (h : a + 3 ≤ s.size.toNat) :
    ∃ c, s.component a = some c := by
  obtain ⟨x, hx⟩ := hr.u8 (a := a) (by omega)
  obtain ⟨y, hy⟩ := hr.u8 (a := a + 1) (by omega)
  obtain ⟨z, hz⟩ := hr.u8 (a := a + 2) (by omega)
  exact ⟨⟨x, y, z⟩, State.component_eq_some.2 ⟨hx, hy, hz⟩⟩

/-- The 17 bytes can be read where they are inside a readable buffer (R162). -/
theorem State.Readable.sofSegment {s : State} (hr : s.Readable) {o : Nat} (h : o + 17 ≤ s.size.toNat) :
    ∃ seg, s.sofSegment o = some seg := by
  obtain ⟨l, hl⟩ := hr.be16 (a := o) (by omega)
  obtain ⟨p, hp⟩ := hr.u8 (a := o + 2) (by omega)
  obtain ⟨y, hy⟩ := hr.be16 (a := o + 3) (by omega)
  obtain ⟨x, hx⟩ := hr.be16 (a := o + 5) (by omega)
  obtain ⟨n, hn⟩ := hr.u8 (a := o + 7) (by omega)
  obtain ⟨c0, h0⟩ := hr.component (a := o + 8) (by omega)
  obtain ⟨c1, h1⟩ := hr.component (a := o + 11) (by omega)
  obtain ⟨c2, h2⟩ := hr.component (a := o + 14) (by omega)
  exact ⟨⟨l, p, y, x, n, c0, c1, c2⟩, by simp only [State.sofSegment, hl, hp, hy, hx, hn, h0, h1, h2]⟩

/-! ### The marker search -/

/-- What a search that finds a marker has seen: no marker-start byte before it, then the two marker bytes (R122). -/
theorem searchFrom_eq_marker {s : State} {n a i : Nat} {code : Byte} (h : searchFrom s n a = .marker i code) :
    a ≤ i ∧ i < a + n ∧ i + 1 < s.size.toNat ∧ s.u8 i = some Config.markerStart ∧ s.u8 (i + 1) = some code ∧
      ∀ b, a ≤ b → b < i → ∃ v, s.u8 b = some v ∧ v ≠ Config.markerStart := by
  induction n generalizing a with
  | zero => cases h
  | succ n ih =>
    unfold searchFrom at h
    split at h
    · cases h
    · rename_i v hv
      split at h
      · subst_vars
        split at h
        · cases h
        · split at h
          · cases h
            exact ⟨le_rfl, by omega, by omega, hv, ‹_›, fun b h1 h2 => absurd h2 (by omega)⟩
          · cases h
      · obtain ⟨h1, h2, h3, h4, h5, h6⟩ := ih h
        refine ⟨by omega, by omega, h3, h4, h5, fun b hb1 hb2 => ?_⟩
        by_cases hab : b = a
        · exact ⟨v, hab ▸ hv, ‹_›⟩
        · exact h6 b (by omega) hb2

/-- A search of what remains below `size` meets no unreadable byte where every byte below `size` is readable (R64). -/
theorem searchFrom_readable {s : State} (hr : s.Readable) {n a : Nat} (h : a + n ≤ s.size.toNat) :
    searchFrom s n a ≠ .unreadable := by
  induction n generalizing a with
  | zero => simp [searchFrom]
  | succ n ih =>
    obtain ⟨v, hv⟩ := hr.u8 (a := a) (by omega)
    simp only [searchFrom, hv]
    split
    · split
      · simp
      · obtain ⟨c, hc⟩ := hr.u8 (a := a + 1) (by omega)
        simp [hc]
    · exact ih (by omega)

/-- The search passes over bytes that are not the marker-start byte (R122). -/
theorem searchFrom_skip {s : State} {n a i : Nat} (hai : a ≤ i)
    (h : ∀ b, a ≤ b → b < i → ∃ v, s.u8 b = some v ∧ v ≠ Config.markerStart) (hn : i ≤ a + n) :
    searchFrom s n a = searchFrom s (a + n - i) i := by
  induction n generalizing a with
  | zero =>
    obtain rfl : a = i := by omega
    simp
  | succ n ih =>
    by_cases hia : a = i
    · subst hia
      congr 1
      omega
    · obtain ⟨v, hv, hne⟩ := h a le_rfl (by omega)
      rw [searchFrom]
      simp only [hv, if_neg hne]
      rw [ih (by omega) (fun b h1 h2 => h b (by omega) h2) (by omega)]
      congr 1
      omega

end Sys2Proof.Machine
end

