-- ==== Sys2Proof/Laws/Exec.lean ====
section
/-! SUPPORT. What the loops inside the operations SOF0 and DQT do, said once: the insertion pass by its result, the table
iteration by the list of entries it takes. -/

namespace Sys2Proof.Machine

/-! ### SOF0 -/

/-- Steps 7 and 8 of SOF0 by the result of the insertion pass (R167, R168). -/
theorem sofComponents_of_pass {floor : Nat} {s : State} {seg : SofSegment} {i0 i1 i2 : Component}
    (h : insertionPass floor seg.c0 seg.c1 seg.c2 = [i0, i1, i2]) :
    sofComponents floor s seg = match samplingType i0.samp with
      | none => s.raiseFail .sofSamplingFirst
      | some t => sofCommit (s.setType t) seg.len.toNat i1 i2 := by
  unfold sofComponents
  simp only [h]
  rfl

/-- Step 8 does not tell the other two components apart (R171). -/
theorem sofCommit_comm (s : State) (len : Nat) (a b : Component) : sofCommit s len a b = sofCommit s len b a := by
  unfold sofCommit
  by_cases h1 : a.samp = Config.sampChroma <;> by_cases h2 : b.samp = Config.sampChroma <;> simp [h1, h2, eq_comm]

theorem dimensionOk_iff (d : Half) : dimensionOk d = true ↔ d.toNat ≠ 0 ∧ d.toNat ≤ 2040 := by
  unfold dimensionOk Config.dimMax
  rw [decide_eq_true_iff]

theorem samplingType_eq_some {samp t : Byte} (h : samplingType samp = some t) :
    (samp = 0x21 ∧ t = 0) ∨ (samp = 0x22 ∧ t = 1) := by
  unfold samplingType at h
  split at h
  · exact .inl ⟨‹_›, (Option.some.inj h).symm⟩
  · split at h
    · exact .inr ⟨‹_›, (Option.some.inj h).symm⟩
    · cases h

/-! ### The bytes of a segment -/

theorem State.bytesAt_length {s : State} {a n : Nat} (h : ∀ k, k < n → (s.u8 (a + k)).isSome) :
    (s.bytesAt a n).length = n := by
  induction n with
  | zero => rfl
  | succ n ih =>
    have ih := ih fun k hk => h k (by omega)
    obtain ⟨b, hb⟩ := Option.isSome_iff_exists.1 (h n (by omega))
    simp only [State.bytesAt] at ih ⊢
    rw [List.range_succ, List.filterMap_append]
    simp [hb, ih]

theorem State.bytesAt_cons {s : State} {a n : Nat} {b : Byte} (hb : s.u8 a = some b) :
    s.bytesAt a (n + 1) = b :: s.bytesAt (a + 1) n := by
  simp only [State.bytesAt]
  rw [List.range_succ_eq_map, List.filterMap_cons]
  simp [hb, List.filterMap_map, Nat.add_assoc, Nat.add_comm 1]

/-- Where every byte is readable, the list of the bytes is the bytes in address order. -/
theorem State.getElem?_bytesAt {s : State} {a n k : Nat} (h : ∀ k, k < n → (s.u8 (a + k)).isSome) (hk : k < n) :
    (s.bytesAt a n)[k]? = s.u8 (a + k) := by
  induction n generalizing a k with
  | zero => omega
  | succ n ih =>
    obtain ⟨b, hb⟩ := Option.isSome_iff_exists.1 (h 0 (by omega))
    rw [Nat.add_zero] at hb
    rw [State.bytesAt_cons hb]
    cases k with
    | zero => simpa using hb.symm
    | succ k =>
      rw [List.getElem?_cons_succ, ih (fun j hj => ?_) (by omega), Nat.add_assoc, Nat.add_comm 1]
      rw [Nat.add_assoc, Nat.add_comm 1]
      exact h _ (by omega)

theorem State.take_bytesAt {s : State} {a n m : Nat} (h : ∀ k, k < n → (s.u8 (a + k)).isSome) (hm : m ≤ n) :
    (s.bytesAt a n).take m = s.bytesAt a m := by
  apply List.ext_getElem?
  intro i
  rw [List.getElem?_take]
  split
  · rw [State.getElem?_bytesAt h (by omega), State.getElem?_bytesAt (fun k hk => h k (by omega)) (by omega)]
  · rw [List.getElem?_eq_none]
    rw [State.bytesAt_length fun k hk => h k (by omega)]
    omega

theorem State.drop_bytesAt {s : State} {a n m : Nat} (h : ∀ k, k < n → (s.u8 (a + k)).isSome) (hm : m ≤ n) :
    (s.bytesAt a n).drop m = s.bytesAt (a + m) (n - m) := by
  have h2 : ∀ k, k < n - m → (s.u8 (a + m + k)).isSome := fun k hk => by
    rw [Nat.add_assoc]
    exact h _ (by omega)
  apply List.ext_getElem?
  intro i
  rw [List.getElem?_drop]
  by_cases hi : i < n - m
  · rw [State.getElem?_bytesAt h (by omega), State.getElem?_bytesAt h2 (by omega), Nat.add_assoc]
  · rw [List.getElem?_eq_none, List.getElem?_eq_none]
    · rw [State.bytesAt_length h2]
      omega
    · rw [State.bytesAt_length h]
      omega

/-! ### DQT -/

theorem tableSize_eq (b : Byte) : tableSize b = if b.toNat / 16 = 0 then 64 else 128 := rfl

theorem tableSize_cases (b : Byte) : tableSize b = 64 ∨ tableSize b = 128 := by
  rw [tableSize_eq]
  split <;> simp

/-- The clamp is a minimum where the length field is inside the buffer (R184). -/
theorem clampLen_eq {o len size : Nat} (h : o ≤ size) : clampLen o len size = min len (size - o) := by
  unfold clampLen
  split <;> omega

/-- Copying a table of readable bytes into range writes them all in address order (R67, R185). -/
theorem copyToQt_eq {n : Nat} {s : State} {dst src : Nat} (h : ∀ k, k < n → (s.u8 (src + k)).isSome)
    (hd : dst + n ≤ 1920) :
    copyToQt n s dst src = .next { s with qt := s.qt.writeBytes dst (s.bytesAt src n) } := by
  obtain ⟨t, ht⟩ := copyToQt_completes h hd
  obtain ⟨bs, hl, hbs, -, rfl⟩ := copyToQt_eq_next ht
  rw [ht]
  congr
  apply List.ext_getElem?
  intro k
  by_cases hk : k < n
  · rw [← hbs k hk, State.getElem?_bytesAt h hk]
  · rw [List.getElem?_eq_none (by omega), List.getElem?_eq_none (by rw [State.bytesAt_length h]; omega)]

/-- The table iteration over readable bytes: it stores the entries that the list reading of the segment takes (R185,
R187). The two bounds on the number of entries need only be large enough. -/
theorem dqtTables_eq {fuel rem : Nat} {s : State} {p fuel' : Nat} (h1 : rem ≤ fuel) (h2 : rem ≤ fuel')
    (h3 : ∀ k, k < rem → (s.u8 (p + k)).isSome) :
    dqtTables fuel s p rem = .next { s with
      qt := storeTables s.qt (tableEntries fuel' (s.bytesAt p rem))
      precision := lastPrecision s.precision (tableEntries fuel' (s.bytesAt p rem)) } := by
  induction fuel generalizing s p rem fuel' with
  | zero =>
    obtain rfl : rem = 0 := by omega
    have : tableEntries fuel' (s.bytesAt p 0) = [] := by cases fuel' <;> rfl
    simp [this, dqtTables, storeTables, lastPrecision]
  | succ f ih =>
    by_cases h0 : rem = 0
    · subst h0
      have : tableEntries fuel' (s.bytesAt p 0) = [] := by cases fuel' <;> rfl
      simp [this, dqtTables, storeTables, lastPrecision]
    obtain ⟨r, rfl⟩ : ∃ r, rem = r + 1 := ⟨rem - 1, by omega⟩
    obtain ⟨g, rfl⟩ : ∃ r, fuel' = r + 1 := ⟨fuel' - 1, by omega⟩
    obtain ⟨b, hb⟩ := Option.isSome_iff_exists.1 (h3 0 (by omega))
    rw [Nat.add_zero] at hb
    have h3' : ∀ k, k < r → (s.u8 (p + 1 + k)).isSome := fun k hk => by
      rw [Nat.add_assoc, Nat.add_comm 1]
      exact h3 _ (by omega)
    rw [State.bytesAt_cons hb]
    simp only [dqtTables, tableEntries]
    rw [if_neg (by omega), withU8_of_some hb, ← tableSize_eq]
    by_cases hid : b.toNat % 16 = 15
    · rw [if_pos (by exact hid), if_pos hid]
      simp [storeTables, lastPrecision]
    rw [if_neg (by exact hid), if_neg hid, State.bytesAt_length h3']
    by_cases hsz : r < tableSize b
    · rw [if_pos (by omega), if_pos hsz]
      simp [storeTables, lastPrecision]
    rw [if_neg (by omega), if_neg hsz, State.take_bytesAt h3' (by omega), State.drop_bytesAt h3' (by omega)]
    have hts := tableSize_cases b
    have hsrc : ∀ k, k < tableSize b → (s.u8 (p + 1 + k)).isSome := fun k hk => h3' k (by omega)
    have hidl : tableId b ≤ 14 := by
      have := b.isLt
      unfold tableId
      omega
    rw [copyToQt_eq hsrc (by have := Nat.mul_le_mul hidl (show tableSize b ≤ 128 by omega); omega), andThen_next,
      ih (fuel' := g) (by omega) (by omega) fun k hk => ?_]
    · have e : ∀ t : State, t.cont = s.cont → t.size = s.size → t.bytesAt = s.bytesAt := by
        intro t hc hs
        funext a n
        simp only [State.bytesAt, State.u8_congr hc hs]
      rw [e _ rfl rfl]
      simp only [storeTables, lastPrecision, List.foldl_cons, State.bytesAt_length hsrc]
      rw [show r + 1 - (tableSize b + 1) = r - tableSize b by omega,
        show p + tableSize b + 1 = p + 1 + tableSize b by omega]
      rfl
    · have := h3 (tableSize b + 1 + k) (by omega)
      rw [show p + tableSize b + 1 + k = p + (tableSize b + 1 + k) by omega]
      exact this

/-- All that the table iteration can write, whatever it reads. -/
theorem dqtTables_frame {fuel : Nat} {s t : State} {p rem : Nat} (h : dqtTables fuel s p rem = .next t) :
    t = { s with qt := t.qt, precision := t.precision } := by
  induction fuel generalizing s p rem with
  | zero => cases h; rfl
  | succ f ih =>
    simp only [dqtTables] at h
    split at h
    · cases h; rfl
    obtain ⟨b, hb, h⟩ := withU8_eq_next h
    split at h
    · cases h; rfl
    split at h
    · cases h; rfl
    obtain ⟨s', hw, h⟩ := andThen_eq_next.1 h
    obtain ⟨bs, -, -, -, rfl⟩ := copyToQt_eq_next hw
    exact ih (s := ({ s with qt := s.qt.writeBytes (tableId b * tableSize b) bs } : State).setPrecision
      (precisionFlag b)) h

end Sys2Proof.Machine
end

