-- ==== Sys2Proof/Laws/PerInstr.lean ====
section
/-! SUPPORT. A family of statements about every instruction: its opcode-table word, `0xFF00 + code` (spec/30_encoding.md
R90, R107), decodes to it. One lemma per constructor. -/

namespace Sys2Proof.Laws

/-- A well-formed instruction is what the decoder reads from its 16-bit marker. -/
def OpcodeWord.Statement (i : Instr) : Prop := i.wf = true → decodeTableWord 16 (0xFF00 + i.code.toNat) = some i

theorem OpcodeWord.sof0 : OpcodeWord.Statement .sof0 := by unfold OpcodeWord.Statement; decide
theorem OpcodeWord.dht : OpcodeWord.Statement .dht := by unfold OpcodeWord.Statement; decide
theorem OpcodeWord.soi : OpcodeWord.Statement .soi := by unfold OpcodeWord.Statement; decide
theorem OpcodeWord.eoi : OpcodeWord.Statement .eoi := by unfold OpcodeWord.Statement; decide
theorem OpcodeWord.sos : OpcodeWord.Statement .sos := by unfold OpcodeWord.Statement; decide
theorem OpcodeWord.dqt : OpcodeWord.Statement .dqt := by unfold OpcodeWord.Statement; decide
theorem OpcodeWord.dri : OpcodeWord.Statement .dri := by unfold OpcodeWord.Statement; decide
theorem OpcodeWord.appn (n : BitVec 4) : OpcodeWord.Statement (.appn n) := by
  unfold OpcodeWord.Statement; revert n; decide +kernel
theorem OpcodeWord.com : OpcodeWord.Statement .com := by unfold OpcodeWord.Statement; decide
theorem OpcodeWord.other (code : Byte) : OpcodeWord.Statement (.other code) := by
  unfold OpcodeWord.Statement; revert code; decide +kernel

end Sys2Proof.Laws
end

