-- ==== Sys2Proof/Laws/Step.lean ====
section
/-! SUPPORT. The shape of a step of the parser and of a command of the host, said once: which kind of step runs, what a
marker step found, what an accepted command did. -/

namespace Sys2Proof.Machine

theorem toNat_ofNat_word {n : Nat} (h : n < 2 ^ 32) : (BitVec.ofNat 32 n).toNat = n := by
  rw [BitVec.toNat_ofNat]
  exact Nat.mod_eq_of_lt h

@[simp] theorem State.setOffset_toNat_size (s : State) : s.setOffset s.size.toNat = { s with offset := s.size } := by
  simp [State.setOffset]

/-- The loop condition in numbers (R121). -/
theorem State.scanning_iff (s : State) : s.scanning = true ↔ s.sosFound = false ∧ s.o < s.size.toNat := by
  simp [State.scanning, State.o, BitVec.lt_def]

theorem step_of_scanning {s : State} (hb : s.state = .busy) (hs : s.scanning = true) : step s = markerStep s := by
  simp only [step, busyStep, hb, hs, if_true]

theorem step_of_loop_ended {s : State} (hb : s.state = .busy) (hs : s.scanning = false) :
    step s = .next (finishStep s) := by
  simp [step, busyStep, hb, hs]

theorem step_of_not_busy {s : State} (h : s.state ≠ .busy) : step s = .next s := by
  unfold step
  split <;> simp_all

/-- All that a marker step can do where it goes on: the operation a marker selects, or the end of the scan. -/
theorem markerStep_eq_next {s t : State} (h : markerStep s = .next t) :
    (∃ i code, s.fetch = .marker i code ∧ exec (decodeCode code) (s.setOffset (i + 2)) = .next t) ∨
    (s.fetch = .exhausted ∧ t = { s with offset := s.size }) := by
  unfold markerStep at h
  split at h
  · exact .inl ⟨_, _, ‹_›, h⟩
  · cases h
    exact .inr ⟨‹_›, s.setOffset_toNat_size⟩
  · cases h

/-- All that the finish step can write. -/
theorem finishStep_frame (s : State) :
    finishStep s = { s with
      state := (finishStep s).state, cause := (finishStep s).cause, scanOff := (finishStep s).scanOff,
      scanLen := (finishStep s).scanLen, type := (finishStep s).type } := by
  unfold finishStep
  repeat' split
  all_goals rfl

theorem core_run_next (M : Host.Core) (k : Nat) {s t : M.State} (h : M.step s = .next t) :
    M.run (k + 1) s = M.run k t := by rw [Host.Core.run, h]

theorem core_run_fault (M : Host.Core) (k : Nat) {s : M.State} {r : M.Fault} (h : M.step s = .fault r) :
    M.run (k + 1) s = .fault r := by rw [Host.Core.run, h]

theorem core_run_refused (M : Host.Core) (k : Nat) {s : M.State} {r : M.Refusal} (h : M.step s = .refused r) :
    M.run (k + 1) s = .refused r := by rw [Host.Core.run, h]

/-- The host's run of the machine is the model's run of the parser. -/
theorem core_run (k : Nat) (s : State) : Host.Core.run Sys2Proof.core k s = parserRun k s := by
  induction k generalizing s with
  | zero => rfl
  | succ k ih =>
    rw [parserRun]
    cases h : step s with
    | next t => exact (core_run_next Sys2Proof.core k h).trans (ih t)
    | fault r => exact core_run_fault Sys2Proof.core k h
    | refused r => exact core_run_refused Sys2Proof.core k h

theorem some_of_ite_eq_some {α : Type} {p : Prop} [Decidable p] {a b : α} (h : (if p then some a else none) = some b) :
    p ∧ a = b := by
  split at h
  · exact ⟨‹p›, Option.some.inj h⟩
  · cases h

/-- All that an accepted command can do to the state: RESET, LOAD, START and SETQ write what their rules say, every read
leaves it (R233 to R242). -/
theorem hostCommand_eq_some {cap : Nat} {c : HostCmd} {s t : State} {r : Reply} (h : hostCommand cap c s = some (t, r)) :
    (c = .reset ∧ t = State.reset ∧ r = .nothing) ∨
    (∃ bytes, c = .load bytes ∧ s.state ≠ .busy ∧ bytes.length ≤ cap ∧ r = .nothing ∧
      t = { s.clearResults with
        cont := Memory.ofBytesAt 0 bytes, size := BitVec.ofNat 32 bytes.length, state := .idle }) ∨
    (c = .start ∧ s.state ≠ .busy ∧ r = .nothing ∧ t = { s.clearResults with state := .busy }) ∨
    (∃ v, c = .setq v ∧ s.state ≠ .busy ∧ r = .nothing ∧ t = { s with qfactor := v }) ∨
    (c ≠ .reset ∧ (∀ b, c ≠ .load b) ∧ c ≠ .start ∧ (∀ v, c ≠ .setq v) ∧ t = s) := by
  unfold hostCommand at h
  cases c with
  | reset =>
    obtain ⟨ht, hr⟩ := Prod.mk.inj (Option.some.inj h)
    exact .inl ⟨rfl, ht.symm, hr.symm⟩
  | load bytes =>
    obtain ⟨⟨h1, h2⟩, h3⟩ := some_of_ite_eq_some h
    cases h3
    exact .inr (.inl ⟨bytes, rfl, h1, h2, rfl, rfl⟩)
  | start =>
    obtain ⟨h1, h2⟩ := some_of_ite_eq_some h
    cases h2
    exact .inr (.inr (.inl ⟨rfl, h1, rfl, rfl⟩))
  | setq v =>
    obtain ⟨h1, h2⟩ := some_of_ite_eq_some h
    cases h2
    exact .inr (.inr (.inr (.inl ⟨v, rfl, h1, rfl, rfl⟩)))
  | rdQt i =>
    simp only [hostRdQt] at h
    split at h
    · simp only [Option.map_eq_some_iff, Prod.mk.injEq] at h
      obtain ⟨-, -, rfl, -⟩ := h
      simp
    · cases h
  | rdScan k =>
    simp only [hostRdScan] at h
    split at h
    · simp only [Option.map_eq_some_iff, Prod.mk.injEq] at h
      obtain ⟨-, -, rfl, -⟩ := h
      simp
    · cases h
  | rdStatus => cases h; simp
  | rdSize => cases h; simp
  | rdQfactor => cases h; simp
  | _ =>
    obtain ⟨-, h2⟩ := some_of_ite_eq_some h
    cases h2
    simp

end Sys2Proof.Machine
end

