-- ==== Sys2Proof/Tests/Slice0.lean ====
section
/-! SUPPORT. Tests. Expected values are taken from the spec (the rule stands in each comment), worked by hand where the
rule gives no number. The theorems `witness_…` show, for a statement of Certificates/Slice0/Obligations.lean that has
hypotheses, concrete states and operands that meet them all. -/

namespace Sys2Proof.Tests

open Sys2Proof.Machine

/-- A parse in progress over these bytes, at offset `o`. -/
def loaded (bytes : List Byte) (o : Nat) : State :=
  { State.reset with
    cont := Memory.ofBytesAt 0 bytes, size := BitVec.ofNat 32 bytes.length, state := .busy, offset := BitVec.ofNat 32 o }

/-- The result is a next state with this property. -/
def goesTo (r : Result) (p : State → Bool) : Bool :=
  match r with
  | .next t => p t
  | .fault _ => false
  | .refused _ => false

theorem next_of_goesTo {r : Result} {p : State → Bool} (h : goesTo r p = true) : ∃ t, r = .next t ∧ p t = true := by
  unfold goesTo at h
  split at h
  · exact ⟨_, rfl, h⟩
  · cases h
  · cases h

/-! ### Well-formedness: each check refuses an ill-formed term (R92, R103) -/

theorem test_wf_refuses_sof0_code : (Instr.other 0xC0).wf = false := by decide
theorem test_wf_refuses_dht_code : (Instr.other 0xC4).wf = false := by decide
theorem test_wf_refuses_soi_code : (Instr.other 0xD8).wf = false := by decide
theorem test_wf_refuses_eoi_code : (Instr.other 0xD9).wf = false := by decide
theorem test_wf_refuses_sos_code : (Instr.other 0xDA).wf = false := by decide
theorem test_wf_refuses_dqt_code : (Instr.other 0xDB).wf = false := by decide
theorem test_wf_refuses_dri_code : (Instr.other 0xDD).wf = false := by decide
theorem test_wf_refuses_com_code : (Instr.other 0xFE).wf = false := by decide
theorem test_wf_refuses_first_app_code : (Instr.other 0xE0).wf = false := by decide
theorem test_wf_refuses_last_app_code : (Instr.other 0xEF).wf = false := by decide
theorem test_wf_admits_neighbours : ([0xDF, 0xF0, 0xC1, 0xDC, 0xFF, 0x00] : List Byte).all (fun c => (Instr.other c).wf) = true := by
  decide

/-! ### Decoding: every constructor's word written out from R92 -/

theorem test_decode_sof0 : decode [0b11111111, 0b11000000] = .ok (.sof0, []) := by decide
theorem test_decode_dht : decode [0b11111111, 0b11000100] = .ok (.dht, []) := by decide
theorem test_decode_soi : decode [0b11111111, 0b11011000] = .ok (.soi, []) := by decide
theorem test_decode_eoi : decode [0b11111111, 0b11011001] = .ok (.eoi, []) := by decide
theorem test_decode_sos : decode [0b11111111, 0b11011010] = .ok (.sos, []) := by decide
theorem test_decode_dqt : decode [0b11111111, 0b11011011] = .ok (.dqt, []) := by decide
theorem test_decode_dri : decode [0b11111111, 0b11011101] = .ok (.dri, []) := by decide
theorem test_decode_app0 : decode [0b11111111, 0b11100000] = .ok (.appn 0, []) := by decide
theorem test_decode_app15 : decode [0b11111111, 0b11101111] = .ok (.appn 15, []) := by decide
theorem test_decode_com : decode [0b11111111, 0b11111110] = .ok (.com, []) := by decide
/-- R147: a progressive frame header is OTHER. -/
theorem test_decode_other : decode [0b11111111, 0b11000010, 0x00] = .ok (.other 0xC2, [0x00]) := by decide
/-- R122: a second 0xFF is a code, not a fill byte. -/
theorem test_decode_fill_byte : decode [0xFF, 0xFF, 0xC0] = .ok (.other 0xFF, [0xC0]) := by decide
theorem test_decode_refuses_other_start : decode [0xFE, 0xFF] = .error (.notMarkerStart 0xFE) := by decide
theorem test_decode_refuses_lone_start : decode [0xFF] = .error .truncated := by decide

/-- R107: the matches of the table's rows, as opcode-table words. -/
theorem test_table_words :
    ([0xFFC0, 0xFFC4, 0xFFD8, 0xFFD9, 0xFFDA, 0xFFDB, 0xFFDD, 0xFFE3, 0xFFFE, 0xFF00] : List Nat).map (decodeTableWord 16) =
      [some .sof0, some .dht, some .soi, some .eoi, some .sos, some .dqt, some .dri, some (.appn 3), some .com,
        some (.other 0x00)] := by decide
theorem test_encode_words :
    ([.sof0, .appn 3, .other 0xC2] : List Instr).map encode = [[0xFF, 0xC0], [0xFF, 0xE3], [0xFF, 0xC2]] := by decide

/-! ### One step of each operation -/

/-- The frame of R172 (480 high, 640 wide), with its marker at address 0. -/
def frame : List Byte :=
  [0xFF, 0xC0, 0x00, 0x11, 0x08, 0x01, 0xE0, 0x02, 0x80, 0x03, 0x01, 0x21, 0x00, 0x02, 0x11, 0x01, 0x03, 0x11, 0x01]

/-- R172: 80 blocks wide, 60 high, type 0; `offset` = 2 + 17. -/
theorem test_sof0 : goesTo (step (loaded frame 0)) (fun t =>
    t.widthBlocks = 80 && t.heightBlocks = 60 && t.type = 0 && t.sofFound && t.offset = 19) = true := by decide
/-- R165: a width of 2041 fails before anything is stored. -/
theorem test_sof0_dimension : goesTo (step (loaded (frame.take 7 ++ [0x07, 0xF9] ++ frame.drop 9) 0)) (fun t =>
    t.state = .fail && t.cause = .sofDimension && t.heightBlocks = 0 && t.offset = 2) = true := by decide
/-- R144: `L` = 1 is obeyed. -/
theorem test_dht : goesTo (step (loaded [0xFF, 0xC4, 0x00, 0x01, 0xFF, 0xD9] 0)) (fun t => t.offset = 3) = true := by
  decide
/-- R145. -/
theorem test_soi : goesTo (step (loaded [0xFF, 0xD8, 0xFF, 0xD9] 0)) (fun t => t.offset = 2 && !t.eoiSeen) = true := by
  decide
/-- R122: the search passes 0x12, EOI at 1. -/
theorem test_eoi : goesTo (step (loaded [0x12, 0xFF, 0xD9, 0x34] 0)) (fun t => t.offset = 3 && t.eoiSeen) = true := by
  decide
/-- R213: `header_len` = 2 + 4, `offset` stays at 2. -/
theorem test_sos : goesTo (step (loaded [0xFF, 0xDA, 0x00, 0x04, 0x01, 0x02, 0x34, 0x56] 0)) (fun t =>
    t.headerLen = 6 && t.sosFound && t.offset = 2 && t.state = .busy) = true := by decide
/-- R212: 2 + 7 > 8. -/
theorem test_sos_beyond : goesTo (step (loaded [0xFF, 0xDA, 0x00, 0x07, 0x01, 0x02, 0x34, 0x56] 0)) (fun t =>
    t.state = .fault && t.cause = .scanStartBeyondEnd && t.headerLen = 0 && !t.sosFound) = true := by decide
/-- R185, R189: table 2 of 64 bytes goes to indices 128 to 191. -/
theorem test_dqt : goesTo (step (loaded ([0xFF, 0xDB, 0x00, 0x43, 0x02] ++ List.replicate 63 0x01 ++ [0x40]) 0)) (fun t =>
    t.dqtFound && t.offset = 69 && t.qt.read 127 = none && t.qt.read 128 = some 1 && t.qt.read 191 = some 0x40 &&
      t.qt.read 192 = none) = true := by decide
/-- R183: a length of 1 ends the scan, and the marker counts as found. -/
theorem test_dqt_length : goesTo (step (loaded [0xFF, 0xDB, 0x00, 0x01, 0xFF, 0xD9] 0)) (fun t =>
    t.dqtFound && t.offset = 6 && t.qt = []) = true := by decide
/-- R206 (e): the interval is 0xFFD9, `offset` 2 + 6. -/
theorem test_dri : goesTo (step (loaded [0xFF, 0xDD, 0x00, 0x06, 0xFF, 0xD9, 0xAA, 0xBB, 0xFF, 0xD9] 0)) (fun t =>
    t.restartInterval = 65497 && t.driFound && t.offset = 8) = true := by decide
/-- R206 (c): ignored. -/
theorem test_dri_ignored : goesTo (step (loaded [0xFF, 0xDD, 0x00, 0x03, 0x00, 0x05, 0xFF, 0xD9] 0)) (fun t =>
    t.restartInterval = 0 && !t.driFound && t.offset = 2) = true := by decide
/-- R143: `L` = 0x1000 leads beyond the end. -/
theorem test_appn : goesTo (step (loaded [0xFF, 0xE1, 0x10, 0x00, 0x01, 0x02] 0)) (fun t => t.offset = 4098) = true := by
  decide
/-- R142. -/
theorem test_com : goesTo (step (loaded [0xFF, 0xFE, 0x00, 0x04, 0xFF, 0xD9, 0xFF, 0xD9] 0)) (fun t => t.offset = 6) =
    true := by decide
/-- R143: 0xF0 is OTHER, no segment is skipped. -/
theorem test_other : goesTo (step (loaded [0xFF, 0xF0, 0x00, 0x04, 0xFF, 0xD9] 0)) (fun t => t.offset = 2) = true := by
  decide
/-- R123. -/
theorem test_exhaustion : goesTo (step (loaded [0x01, 0x02, 0xFF] 0)) (fun t => t.offset = 3 && t.state = .busy) = true := by
  decide
/-- R235: a Container of no bytes ends in NO_SOF. -/
theorem test_finish_empty : goesTo (step (loaded [] 0)) (fun t => t.state = .fail && t.cause = .noSof) = true := by decide
/-- R167: with floor 1 the entry with the smallest id is not brought to the front. -/
theorem test_insertion_floor_one :
    insertionPass 1 ⟨3, 0x21, 0⟩ ⟨2, 0x11, 1⟩ ⟨1, 0x11, 1⟩ = [⟨3, 0x21, 0⟩, ⟨1, 0x11, 1⟩, ⟨2, 0x11, 1⟩] := by decide
/-- R41: OK with SOF, DQT and DRI; FAIL with NO_DQT after SOF; BUSY shows STATE only. -/
theorem test_status :
    State.statusWord { State.reset with state := .ok, sofFound := true, dqtFound := true, driFound := true } = 0x005A ∧
    State.statusWord { State.reset with state := .fail, cause := .noDqt, sofFound := true } = 0x110B ∧
    State.statusWord { State.reset with state := .busy, sofFound := true, eoiSeen := true } = 0x0001 := by decide
/-- An opcode-table word placed by `withFetchWord` is what the next step runs. -/
theorem test_fetch_word : goesTo (step (State.reset.withFetchWord 16 0xFFD9)) (fun t => t.eoiSeen && t.offset = 2) = true := by
  decide
theorem test_fetch_word_sof0 : goesTo (step (State.reset.withFetchWord 16 0xFFC0)) (fun t => t.cause = .sofLength) = true := by
  decide

/-! ### Witnesses -/

/-- Containers and commands used below: a Container just loaded, and one whose parse succeeds without an SOS. -/
def idle (bytes : List Byte) : State := hostApply Config.sizeMax (.load bytes) State.reset

/-- The frame and a DQT without tables. -/
def smallImage : List Byte := frame ++ [0xFF, 0xDB, 0x00, 0x02]

/-- LOAD, START and `n` steps of the parser, from reset. -/
def parseTurns (bytes : List Byte) (n : Nat) : List Event :=
  .host (.load bytes) :: .host .start :: List.replicate n .parser

/-- A state after a successful parse, with a view of two bytes from address 1 and a table byte at 1919. -/
def succeeded : State :=
  { loaded [0xFF, 0x01, 0x02] 2 with
    state := .ok, sofFound := true, dqtFound := true, sosFound := true, widthBlocks := 1, heightBlocks := 1,
    headerLen := 1, scanOff := 1, scanLen := 2, qt := [(1919, 7)] }

/-- A state in BUSY with all that the finish step asks for, the buffer used up. -/
def finishing : State :=
  { loaded [0x01, 0x02] 2 with sofFound := true, dqtFound := true, widthBlocks := 255, heightBlocks := 1 }

theorem inv_idle : (idle smallImage).Inv := by constructor <;> decide
theorem inv_busy : (loaded smallImage 0).Inv := by constructor <;> decide
theorem inv_succeeded : succeeded.Inv := by constructor <;> decide
theorem inv_finishing : finishing.Inv := by constructor <;> decide

theorem witness_DecodeEncodeRoundTrip : (Instr.other 0xC2).wf = true ∧ decode [0xFF, 0xE1, 0x05] = .ok (.appn 1, [0x05]) := by
  decide

/-- The two-byte field at the last address where it fits, and the first address where it does not. -/
theorem witness_FieldsAreBigEndian :
    let s := loaded [0x12, 0x34] 0
    (0 + 1 < s.size.toNat ∧ s.cont.read 0 = some 0x12 ∧ s.cont.read (0 + 1) = some 0x34) ∧
    (1 < s.size.toNat ∧ s.size.toNat ≤ 1 + 1) ∧ s.size.toNat ≤ 2 := by decide

/-- The last index that exists, and the first that does not. -/
theorem witness_TableStoreWriteIsOneByte :
    writeQt State.reset 1919 7 = .next (State.reset.setQtByte 1919 7) ∧
    writeQt State.reset 1920 7 = .fault .tableStoreWrite := ⟨rfl, rfl⟩

/-- The marker of R122's example, and one that ends with the buffer. -/
theorem witness_StepRunsDecodedMarker :
    let s := loaded [0x12, 0xFF, 0xD9] 0
    s.state = .busy ∧ s.sosFound = false ∧ s.o ≤ 1 ∧ 1 + 1 < s.size.toNat ∧
    (∀ a, s.o ≤ a → a < 1 → ∃ b, s.u8 a = some b ∧ b ≠ 0xFF) ∧ s.u8 1 = some 0xFF ∧ s.u8 (1 + 1) = some 0xD9 ∧
    decode [0xFF, 0xD9] = .ok (.eoi, []) := by
  refine ⟨by decide, by decide, by decide, by decide, fun a _ h => ?_, by decide, by decide, by decide⟩
  obtain rfl : a = 0 := by omega
  exact ⟨0x12, by decide, by decide⟩

/-- A marker-start byte at the last address (R123), and none at all. -/
theorem witness_SearchExhaustionEndsTheScan : ∀ b ∈ ([0xFF, 0x02] : List Byte),
    let s := loaded [0x01, b] 0
    s.state = .busy ∧ s.sosFound = false ∧ s.o < s.size.toNat ∧
    (∀ a, s.o ≤ a → a + 1 < s.size.toNat → ∃ c, s.u8 a = some c ∧ c ≠ 0xFF) ∧ s.u8 (s.size.toNat - 1) = some b := by
  intro b hb s
  refine ⟨rfl, rfl, show 0 < 2 by decide, fun a _ h => ?_, ?_⟩
  · obtain rfl : a = 0 := by
      change a + 1 < 2 at h
      omega
    exact ⟨0x01, rfl, by decide⟩
  · revert b
    decide

theorem witness_ParserIdleOutsideBusy : State.reset.state ≠ .busy := by decide

/-- One byte left, and exactly two. -/
theorem witness_SkippedMarkersAdvanceByLength :
    (let s := loaded [0xFF, 0xFE, 0x00] 2
     s.SizeOk ∧ s.size.toNat < s.o + 2) ∧
    (let s := loaded [0xFF, 0xFE, 0x00, 0x04] 2
     s.SizeOk ∧ s.o + 2 ≤ s.size.toNat ∧ s.be16 s.o = some 4) := by decide

/-- A second frame, and a first one with 16 bytes left. -/
theorem witness_Sof0RepeatedOrCut :
    ({ loaded frame 2 with sofFound := true } : State).sofFound = true ∧
    (let s := loaded (frame.take 18) 2
     s.sofFound = false ∧ s.size.toNat < s.o + 17) := by decide

/-- The greatest width and the least height, length 17, exactly 17 bytes left; the component ids are not in order. -/
theorem witness_Sof0AcceptsValidFrame :
    let s := loaded [0x00, 0x11, 0x08, 0x00, 0x01, 0x07, 0xF8, 0x03, 9, 0x22, 5, 2, 0x11, 1, 1, 0x11, 1] 0
    s.SizeOk ∧ s.sofFound = false ∧ s.o + 17 ≤ s.size.toNat ∧
    s.be16 s.o = some 17 ∧ 17 ≤ (17 : Half).toNat ∧ s.u8 (s.o + 2) = some 8 ∧
    s.be16 (s.o + 3) = some 1 ∧ 1 ≤ (1 : Half).toNat ∧ (1 : Half).toNat ≤ 2040 ∧
    s.be16 (s.o + 5) = some 2040 ∧ 1 ≤ (2040 : Half).toNat ∧ (2040 : Half).toNat ≤ 2040 ∧ s.u8 (s.o + 7) = some 3 ∧
    s.u8 (s.o + 8) = some 9 ∧ s.u8 (s.o + 9) = some 0x22 ∧ s.u8 (s.o + 10) = some 5 ∧
    s.u8 (s.o + 11) = some 2 ∧ s.u8 (s.o + 12) = some 0x11 ∧ s.u8 (s.o + 13) = some 1 ∧
    s.u8 (s.o + 14) = some 1 ∧ s.u8 (s.o + 15) = some 0x11 ∧ s.u8 (s.o + 16) = some 1 := by decide

/-- The frame with the byte at an address replaced. -/
def frameWith (a : Nat) (b : Byte) : List Byte := frame.set a b

/-- Frames that fail one check each, at the edge of what it admits, with the cause. -/
def badFrames : List (List Byte × Cause) :=
  [ (frameWith 3 0x10, .sofLength), (frameWith 4 0x09, .sofPrecision), ((frameWith 5 0x07).set 6 0xF9, .sofDimension),
    ((frameWith 7 0x00).set 8 0x00, .sofDimension), (frameWith 9 0x04, .sofNcomp), (frameWith 11 0x20, .sofSamplingFirst),
    (frameWith 14 0x12, .sofSamplingOther), (frameWith 18 0x02, .sofQtMismatch) ]

theorem witness_Sof0ReportsFirstFailedCheck : ∀ f ∈ badFrames,
    let s := loaded f.1 2
    s.sofFound = false ∧ s.o + 17 ≤ s.size.toNat ∧ ∃ seg, s.sofSegment s.o = some seg ∧ firstSofFailure seg = some f.2 := by
  intro f hf s
  refine ⟨rfl, ?_, Option.bind_eq_some_iff.1 ?_⟩
  · revert f
    decide
  · revert f
    decide

/-- The frame, and the frame with the ids 9, 9, 9. -/
theorem witness_ComponentIdsUnobservable :
    let s := loaded frame 2
    let seg : SofSegment := ⟨17, 8, 480, 640, 3, ⟨1, 0x21, 0⟩, ⟨2, 0x11, 1⟩, ⟨3, 0x11, 1⟩⟩
    s.sofSegment s.o = some seg ∧
    ({ s with cont := (loaded (((frameWith 10 9).set 13 9).set 16 9) 2).cont } : State).sofSegment s.o = some { seg with
      c0 := { seg.c0 with id := 9 }, c1 := { seg.c1 with id := 9 }, c2 := { seg.c2 with id := 9 } } := by decide

/-- One byte left; a length of 1. -/
theorem witness_DqtWithoutLengthEndsTheScan :
    (let s := loaded [0xFF, 0xDB, 0x00] 2
     s.size.toNat < s.o + 2) ∧
    (let s := loaded [0x00, 0x01] 0
     s.o + 2 ≤ s.size.toNat ∧ s.be16 s.o = some 1 ∧ (1 : Half).toNat < 2) := by decide

/-- A DQT segment of one table: header byte, then table bytes. -/
def oneTable (len : Byte) (b : Byte) (n : Nat) : State := loaded ([0x00, len, b] ++ List.replicate n 0x05) 0

/-- A length of 2, and one table of 64 bytes whose declared length passes the end by one. -/
theorem witness_DqtStoresTheTablesOfItsSegment :
    (let s := loaded [0x00, 0x02] 0
     s.SizeOk ∧ s.Readable ∧ s.o + 2 ≤ s.size.toNat ∧ s.be16 s.o = some 2 ∧ 2 ≤ (2 : Half).toNat) ∧
    (let s := oneTable 0x44 0x00 64
     s.SizeOk ∧ s.Readable ∧ s.o + 2 ≤ s.size.toNat ∧ s.be16 s.o = some 0x44 ∧ 2 ≤ (0x44 : Half).toNat) := by
  unfold State.Readable
  decide

/-- Table 0 of 64 bytes, and table 14 of 128 bytes, both ending with the buffer. -/
theorem witness_DqtCopiesOneTable :
    (let s := oneTable 0x43 0x00 64
     s.SizeOk ∧ s.Readable ∧ s.be16 s.o = some 0x43 ∧ s.u8 (s.o + 2) = some 0x00 ∧ (0x00 : Byte).toNat % 16 = 0 ∧
     0 ≠ 15 ∧ 64 = (if (0x00 : Byte).toNat / 16 = 0 then 64 else 128) ∧ (0x43 : Half).toNat = 64 + 3 ∧
     s.o + (0x43 : Half).toNat ≤ s.size.toNat) ∧
    (let s := oneTable 0x83 0x1E 128
     s.SizeOk ∧ s.Readable ∧ s.be16 s.o = some 0x83 ∧ s.u8 (s.o + 2) = some 0x1E ∧ (0x1E : Byte).toNat % 16 = 14 ∧
     14 ≠ 15 ∧ 128 = (if (0x1E : Byte).toNat / 16 = 0 then 64 else 128) ∧ (0x83 : Half).toNat = 128 + 3 ∧
     s.o + (0x83 : Half).toNat ≤ s.size.toNat) := by
  unfold State.Readable
  decide

/-- Id 15 in a segment of one entry byte, and a table cut by one byte. -/
theorem witness_DqtFirstTableRefused :
    (let s := oneTable 0x03 0x0F 0
     s.SizeOk ∧ s.be16 s.o = some 3 ∧ 3 ≤ (3 : Half).toNat ∧ s.u8 (s.o + 2) = some 0x0F ∧ (0x0F : Byte).toNat % 16 = 15) ∧
    (let s := oneTable 0x43 0x00 63
     s.SizeOk ∧ s.be16 s.o = some 0x43 ∧ 3 ≤ (0x43 : Half).toNat ∧ s.u8 (s.o + 2) = some 0x00 ∧
     min (0x43 : Half).toNat (s.size.toNat - s.o) < (if (0x00 : Byte).toNat / 16 = 0 then 64 else 128) + 3) := by decide

/-- Exactly 4 bytes, length 4, the intervals 5 and 0. -/
theorem witness_DriReadsTheInterval : ∀ v ∈ ([5, 0] : List Byte),
    let s := loaded [0x00, 0x04, 0x00, v] 0
    s.SizeOk ∧ s.o + 4 ≤ s.size.toNat ∧ s.be16 s.o = some 4 ∧ 4 ≤ (4 : Half).toNat ∧ s.be16 (s.o + 2) = some (v.setWidth 16) := by
  decide

/-- Three bytes left; a length of 3. -/
theorem witness_DriBelowRequirementsIgnored :
    (let s := loaded [0x00, 0x04, 0x00] 0
     s.size.toNat < s.o + 4) ∧
    (let s := loaded [0x00, 0x03, 0x00, 0x05] 0
     s.o + 4 ≤ s.size.toNat ∧ s.be16 s.o = some 3 ∧ (3 : Half).toNat < 4) := by decide

/-- An empty view: the scan starts at the end. -/
theorem witness_SosMarksTheScanStart :
    let s := loaded [0x00, 0x02] 0
    s.o + 2 ≤ s.size.toNat ∧ s.be16 s.o = some 2 ∧ s.o + (2 : Half).toNat ≤ s.size.toNat := by decide

/-- One byte left; a scan start one beyond the end. -/
theorem witness_SosFaults :
    (let s := loaded [0x00] 0
     s.size.toNat < s.o + 2) ∧
    (let s := loaded [0x00, 0x03] 0
     s.o + 2 ≤ s.size.toNat ∧ s.be16 s.o = some 3 ∧ s.size.toNat < s.o + (3 : Half).toNat) := by decide

/-- The buffer used up, or SOS completed, with each of the three tests failing. -/
theorem witness_FinishStepFailsInOrder :
    (let s := loaded [] 0
     s.state = .busy ∧ s.size.toNat ≤ s.o ∧ s.sofFound = false) ∧
    (let s : State := { loaded [1, 2] 0 with sosFound := true, sofFound := true }
     s.state = .busy ∧ s.sosFound = true ∧ s.sofFound = true ∧ s.dqtFound = false) ∧
    (let s : State := { finishing with heightBlocks := 0 }
     s.state = .busy ∧ s.size.toNat ≤ s.o ∧ s.sofFound = true ∧ s.dqtFound = true ∧ s.heightBlocks = 0) := by decide

theorem witness_FinishStepPublishesTheResult :
    finishing.state = .busy ∧ finishing.size.toNat ≤ finishing.o ∧ finishing.sofFound = true ∧ finishing.dqtFound = true ∧
    finishing.widthBlocks ≠ 0 ∧ finishing.heightBlocks ≠ 0 ∧ finishing.headerLen.toNat ≤ finishing.size.toNat := by decide

theorem witness_SuccessWithoutSosViewsEverything :
    finishing.Inv ∧ finishing.state = .busy ∧ finishing.sosFound = false ∧ finishing.size.toNat ≤ finishing.o ∧
    finishing.sofFound = true ∧ finishing.dqtFound = true ∧ finishing.widthBlocks ≠ 0 ∧ finishing.heightBlocks ≠ 0 :=
  ⟨inv_finishing, by decide⟩

/-- An SOS that faults at the marker at 1, and a finish step. -/
theorem witness_OffsetNamesTheOffendingMarker :
    (let s := loaded [0x00, 0xFF, 0xDA] 0
     s.state = .busy ∧ s.sosFound = false ∧ s.o < s.size.toNat ∧
     ∃ t, step s = .next t ∧ (t.state = .fault && t.offset = 3) = true) ∧
    (finishing.state = .busy ∧ finishing.size.toNat ≤ finishing.o ∧
     ∃ t, step finishing = .next t ∧ (t.state = .ok) = true) := by
  refine ⟨⟨by decide, by decide, by decide, next_of_goesTo (by decide)⟩, by decide, by decide, ?_⟩
  obtain ⟨t, h, ht⟩ := next_of_goesTo (r := step finishing) (p := fun t => t.state = .ok) (by decide)
  exact ⟨t, h, by simpa using ht⟩

/-- A marker step from a state that meets the invariant. -/
theorem witness_StepKeepsInvariant :
    (loaded smallImage 0).Inv ∧ ∃ t, step (loaded smallImage 0) = .next t ∧ (t.sofFound && t.offset = 19) = true :=
  ⟨inv_busy, next_of_goesTo (by decide)⟩

theorem witness_CommandsKeepInvariant : Config.CapOk Config.sizeMax ∧ Config.CapOk 0 ∧ (idle smallImage).Inv :=
  ⟨by decide, by decide, inv_idle⟩

theorem witness_StepNeverStops : (loaded smallImage 0).Inv ∧ succeeded.Inv := ⟨inv_busy, inv_succeeded⟩

theorem witness_RunsFromResetNeverStop : Config.CapOk Config.sizeMax := by decide

/-- A marker step with `offset` two below `size`. -/
theorem witness_OffsetMakesProgress :
    (loaded smallImage 0).Inv ∧ (loaded smallImage 0).state = .busy ∧ (loaded smallImage 0).sosFound = false ∧
    (loaded smallImage 0).o < (loaded smallImage 0).size.toNat ∧
    ∃ t, step (loaded smallImage 0) = .next t ∧ (t.offset = 19 : Bool) = true :=
  ⟨inv_busy, by decide, by decide, by decide, next_of_goesTo (by decide)⟩

theorem witness_EveryParseEnds : (idle smallImage).Inv ∧ (idle smallImage).state ≠ .busy := ⟨inv_idle, by decide⟩

/-- Two states with one Container, one of them after a parse, with other quality factors. -/
theorem witness_ParseIsFunctionOfContainer :
    let s := idle smallImage
    let s' : State := { idle smallImage with qfactor := 3, state := .fail, cause := .noDqt, sofFound := true }
    s.state ≠ .busy ∧ s'.state ≠ .busy ∧ s.cont = s'.cont ∧ s.size = s'.size ∧
    ∃ t, parseAll s = .next t ∧ (t.state = .ok : Bool) = true :=
  ⟨by decide, by decide, rfl, rfl, next_of_goesTo (by decide)⟩

theorem witness_ReparseEndsInTheSameState :
    (idle smallImage).Inv ∧ (idle smallImage).state ≠ .busy ∧
    ∃ t, parseAll (idle smallImage) = .next t ∧ (t.state = .ok : Bool) = true :=
  ⟨inv_idle, by decide, next_of_goesTo (by decide)⟩

theorem witness_ParserNeverWritesHostState : ∃ t, step (loaded smallImage 0) = .next t ∧ (t.sofFound : Bool) = true :=
  next_of_goesTo (by decide)

/-- An EOI is none of the other writers; a frame writes the frame's registers. -/
theorem witness_EachRegisterHasItsWriter :
    (∃ t, exec .eoi (loaded smallImage 2) = .next t ∧ (t.eoiSeen : Bool) = true) ∧ Instr.eoi ≠ .sof0 ∧ Instr.eoi ≠ .dqt ∧
    Instr.eoi ≠ .sos ∧ Instr.eoi ≠ .dri ∧
    (∃ t, exec .sof0 (loaded smallImage 2) = .next t ∧ (t.sofFound : Bool) = true) ∧ Instr.sof0 ≠ .eoi :=
  ⟨next_of_goesTo (by decide), by decide, by decide, by decide, by decide, next_of_goesTo (by decide), by decide⟩

/-- A run from reset that ends in OK: the frame, the DQT, the finish step. -/
theorem witness_OkResultIsLossless :
    Config.CapOk 23 ∧ ∃ t, turns 23 (parseTurns smallImage 3) State.reset = .next t ∧ (t.state = .ok : Bool) = true :=
  ⟨by decide, next_of_goesTo (by decide)⟩

/-- A run from reset that ends in FAIL: an empty Container. -/
theorem witness_FailedParseHasNoScanData :
    Config.CapOk 0 ∧
    ∃ t, turns 0 (parseTurns [] 1) State.reset = .next t ∧ (t.state = .fail && t.cause = .noSof : Bool) = true :=
  ⟨by decide, next_of_goesTo (by decide)⟩

/-- As many bytes as the capacity, one more, and a parse in progress. -/
theorem witness_LoadReplacesTheContainer :
    Config.CapOk 2 ∧ State.reset.state ≠ .busy ∧ ([1, 2] : List Byte).length ≤ 2 ∧ 2 < ([1, 2, 3] : List Byte).length ∧
    (loaded [] 0).state = .busy := by decide

theorem witness_StartClearsAndGoesBusy : succeeded.state ≠ .busy ∧ (loaded [] 0).state = .busy := by decide

theorem witness_SetqWritesQfactorOnly : succeeded.state ≠ .busy ∧ (loaded [] 0).state = .busy := by decide

theorem witness_StatusWordLayout : succeeded.state ≠ .busy ∧ (loaded [] 0).state = .busy := by decide

/-- Each state of the parser. -/
theorem witness_RegisterReadsReturnRegisters :
    succeeded.state = .ok ∧ State.reset.state = .idle ∧ (loaded [] 0).state = .busy ∧
    (loaded [] 0 |>.raiseFail .noSof).state = .fail ∧ (loaded [] 0 |>.raiseFault .sosTruncated).state = .fault := by decide

/-- The last index, written; an index above; an unwritten one; not in OK. -/
theorem witness_TableReadReturnsWrittenByte :
    (succeeded.state = .ok ∧ 1919 ≤ 1919 ∧ succeeded.qt.read 1919 = some 7) ∧ 1919 < 1920 ∧
    succeeded.qt.read 1918 = none ∧ State.reset.state ≠ .ok := by decide

/-- The last byte of the view, and the first beyond it. -/
theorem witness_ScanReadReturnsViewByte :
    succeeded.Inv ∧ succeeded.state = .ok ∧ 1 < succeeded.scanLen.toNat ∧ succeeded.scanLen.toNat ≤ 2 :=
  ⟨inv_succeeded, by decide⟩

/-- An accepted command and a refused one, in states that meet the invariant. -/
theorem witness_AcceptanceByState :
    succeeded.Inv ∧ hostCommand 0 .rdType succeeded = some (succeeded, .bits8 0) ∧
    (idle smallImage).Inv ∧ hostCommand 0 .rdType (idle smallImage) = none :=
  ⟨inv_succeeded, by decide, inv_idle, by decide⟩

/-- Two parses of different Containers of one size. -/
theorem witness_BusyHidesTheParse :
    let s := loaded [1, 2] 0
    let s' : State := { loaded [3, 4] 1 with sofFound := true }
    s.state = .busy ∧ s'.state = .busy ∧ s.size = s'.size ∧ s.qfactor = s'.qfactor ∧ HostCmd.start ≠ .reset := by decide

end Sys2Proof.Tests
end

section
/-! PROOFS. What each update of a parse in progress leaves of the invariant (spec/10_state.md R20 to R49): one rule per
update the operations make, for a BUSY state. -/

namespace Sys2Proof.Machine

/-! ### What the invariant says while BUSY -/

theorem State.ne_ok_of_busy {s : State} (hb : s.state = .busy) : s.state ≠ .ok := by simp [hb]

theorem State.ne_idle_of_busy {s : State} (hb : s.state = .busy) : s.state ≠ .idle := by simp [hb]

/-- Before the finish step succeeds the view is empty (R49). -/
theorem State.viewOk_iff_of_ne_ok (s : State) (hok : s.state ≠ .ok) : s.ViewOk ↔ s.scanOff = 0 ∧ s.scanLen = 0 := by
  rw [State.ViewOk, if_neg hok]

/-- Before the finish step succeeds the type has no 64 added (R33, R168). -/
theorem State.typeOk_iff_of_ne_ok (s : State) (hok : s.state ≠ .ok) : s.TypeOk ↔ s.type = 0 ∨ s.type = 1 := by
  rw [State.TypeOk, if_neg hok]

/-- No sum of an address inside the buffer and a 16-bit length wraps (R15). -/
theorem State.Inv.lt_word {s : State} (h : s.Inv) {n : Nat} (hn : n ≤ s.size.toNat + 65535) : n < 2 ^ 32 := by
  have hsize : s.size.toNat ≤ 0xFFFF0000 := h.sizeOk
  omega

/-! ### One rule per update -/

theorem State.Inv.setOffset {s : State} (h : s.Inv) (hb : s.state = .busy) {n : Nat}
    (hn : n ≤ s.size.toNat + 65535) : (s.setOffset n).Inv :=
  { h with
    offsetBound := by rwa [State.setOffset_o s (h.lt_word hn), State.setOffset_size]
    idleClear := fun hi => absurd hi (State.ne_idle_of_busy hb) }

theorem State.Inv.setBlocks {s : State} (h : s.Inv) (hb : s.state = .busy) (x y : Byte) : (s.setBlocks x y).Inv :=
  { h with
    okFound := fun hok => absurd hok (State.ne_ok_of_busy hb)
    idleClear := fun hi => absurd hi (State.ne_idle_of_busy hb) }

theorem State.Inv.setType {s : State} (h : s.Inv) (hb : s.state = .busy) {t : Byte} (ht : t = 0 ∨ t = 1) :
    (s.setType t).Inv :=
  { h with
    typeOk := ((s.setType t).typeOk_iff_of_ne_ok (State.ne_ok_of_busy hb)).2 ht
    idleClear := fun hi => absurd hi (State.ne_idle_of_busy hb) }

theorem State.Inv.setSofFound {s : State} (h : s.Inv) (hb : s.state = .busy) : s.setSofFound.Inv :=
  { h with
    okFound := fun hok => absurd hok (State.ne_ok_of_busy hb)
    idleClear := fun hi => absurd hi (State.ne_idle_of_busy hb) }

theorem State.Inv.setDqtFound {s : State} (h : s.Inv) (hb : s.state = .busy) : s.setDqtFound.Inv :=
  { h with
    okFound := fun hok => absurd hok (State.ne_ok_of_busy hb)
    idleClear := fun hi => absurd hi (State.ne_idle_of_busy hb) }

theorem State.Inv.setEoiSeen {s : State} (h : s.Inv) (hb : s.state = .busy) : s.setEoiSeen.Inv :=
  { h with idleClear := fun hi => absurd hi (State.ne_idle_of_busy hb) }

/-- The interval and its flag are written together (R204). While BUSY the type does not depend on the flag. -/
theorem State.Inv.setRestart {s : State} (h : s.Inv) (hb : s.state = .busy) (v : Half) : (s.setRestart v).Inv :=
  { h with
    driIff := rfl
    typeOk :=
      have hok := State.ne_ok_of_busy hb
      ((s.setRestart v).typeOk_iff_of_ne_ok hok).2 ((s.typeOk_iff_of_ne_ok hok).1 h.typeOk)
    idleClear := fun hi => absurd hi (State.ne_idle_of_busy hb) }

/-- SOS writes `header_len` and `sos_found` together (R36, R213). -/
theorem State.Inv.setHeaderLen_setSosFound {s : State} (h : s.Inv) (hb : s.state = .busy) {n : Nat}
    (hn : n ≤ s.size.toNat) : (s.setHeaderLen n).setSosFound.Inv :=
  { h with
    headerOk := ⟨by simpa [toNat_ofNat_word (h.lt_word (Nat.le_add_right_of_le hn))] using hn, by simp⟩
    viewOk :=
      have hok := State.ne_ok_of_busy hb
      ((s.setHeaderLen n).setSosFound.viewOk_iff_of_ne_ok hok).2 ((s.viewOk_iff_of_ne_ok hok).1 h.viewOk)
    idleClear := fun hi => absurd hi (State.ne_idle_of_busy hb) }

theorem Cause.outcome_eq_some {c : Cause} {r : ParseState} (h : c.outcome = some r) : r = .fail ∨ r = .fault := by
  cases c <;> simp_all [Cause.outcome]

/-- Raising a cause of the class of the new `state` (R263, R264, R269). -/
theorem State.Inv.endParse {s : State} (h : s.Inv) (hb : s.state = .busy) {r : ParseState} {c : Cause}
    (hc : c.outcome = some r) : (s.endParse r c).Inv := by
  have hview := (s.viewOk_iff_of_ne_ok (State.ne_ok_of_busy hb)).1 h.viewOk
  have htype := (s.typeOk_iff_of_ne_ok (State.ne_ok_of_busy hb)).1 h.typeOk
  obtain rfl | rfl := Cause.outcome_eq_some hc <;>
    exact { h with causeOk := hc, viewOk := hview, typeOk := htype, okFound := nofun, idleClear := nofun }

/-- Success with the three tests passed: the view is the lossless partition (R39) and the type has its 64 (R219). -/
theorem State.Inv.succeed {s : State} (h : s.Inv) (hb : s.state = .busy) (hsof : s.sofFound = true)
    (hdqt : s.dqtFound = true) (hw : s.widthBlocks ≠ 0) (hh : s.heightBlocks ≠ 0) : s.succeed.Inv :=
  { h with
    causeOk := by
      have hcause := h.causeOk
      rwa [State.CauseOk, hb] at hcause
    viewOk := by
      obtain ⟨hheader, -⟩ := h.headerOk
      refine ⟨rfl, ?_⟩
      rw [State.succeed_scanOff, State.succeed_scanLen, State.succeed_size, toNat_ofNat_word (h.lt_word (by omega))]
      omega
    typeOk := by
      rw [State.TypeOk, if_pos s.succeed_state, State.succeed_type, State.succeed_driFound]
      obtain ht | ht := (s.typeOk_iff_of_ne_ok (State.ne_ok_of_busy hb)).1 h.typeOk <;>
        cases s.driFound <;> rw [ht] <;> decide
    okFound := fun _ => ⟨hsof, hdqt, hw, hh⟩
    idleClear := nofun }

/-! ### The table store -/

/-- A table store in canonical form with no index above 1919 (R44): `State.QtOk` of the memory alone. -/
def Memory.StoreOk (m : Memory) : Prop := m.wf ∧ ∀ c ∈ m, c.1 < Config.qtCap

theorem State.qtOk_iff (s : State) : s.QtOk ↔ s.qt.StoreOk := Iff.rfl

theorem Memory.StoreOk.write {m : Memory} (h : m.StoreOk) {i : Nat} (hi : i < Config.qtCap) (v : Byte) :
    (m.write i v).StoreOk := by
  obtain ⟨hwf, hrange⟩ := h
  refine ⟨Memory.wf_write hwf i v, fun c hc => ?_⟩
  obtain rfl | hc := Memory.mem_write hc
  · exact hi
  · exact hrange c hc

theorem Memory.StoreOk.writeBytes {m : Memory} (h : m.StoreOk) {i : Nat} {bs : List Byte}
    (hi : i + bs.length ≤ Config.qtCap) : (m.writeBytes i bs).StoreOk := by
  induction bs generalizing m i with
  | nil => exact h
  | cons b bs ih =>
    rw [List.length_cons] at hi
    exact ih (h.write (by omega) b) (by omega)

/-- One entry of the list reading of DQT's segment, in the terms of the operation (R96, R100, R185). -/
theorem tableEntries_cons (fuel : Nat) (b : Byte) (bs : List Byte) :
    tableEntries (fuel + 1) (b :: bs) =
      if tableId b = Config.qtIdInvalid then []
      else if bs.length < tableSize b then []
      else (b, bs.take (tableSize b)) :: tableEntries fuel (bs.drop (tableSize b)) := rfl

/-- Every table that DQT takes has an id up to 14 and at most 128 bytes, so it lies inside the store (R65, R190). -/
theorem table_inStore_of_mem_tableEntries {fuel : Nat} {bs : List Byte} {e : Byte × List Byte}
    (he : e ∈ tableEntries fuel bs) : e.1.toNat % 16 * e.2.length + e.2.length ≤ Config.qtCap := by
  induction fuel generalizing bs with
  | zero => cases he
  | succ f ih =>
    cases bs with
    | nil => cases he
    | cons b bs =>
      rw [tableEntries_cons] at he
      split at he
      · cases he
      split at he
      · cases he
      obtain rfl | he := List.mem_cons.1 he
      · have hid : b.toNat % 16 ≤ 14 := by
          have : b.toNat % 16 ≠ 15 := ‹_›
          omega
        have hlen : (bs.take (tableSize b)).length ≤ 128 := by
          have := tableSize_cases b
          rw [List.length_take]
          omega
        calc b.toNat % 16 * (bs.take (tableSize b)).length + (bs.take (tableSize b)).length
            ≤ 14 * 128 + 128 := Nat.add_le_add (Nat.mul_le_mul hid hlen) hlen
          _ = Config.qtCap := rfl
      · exact ih he

/-- Storing tables that lie inside the store (R185). -/
theorem Memory.StoreOk.storeTables {m : Memory} (h : m.StoreOk) {es : List (Byte × List Byte)}
    (hes : ∀ e ∈ es, e.1.toNat % 16 * e.2.length + e.2.length ≤ Config.qtCap) : (storeTables m es).StoreOk := by
  induction es generalizing m with
  | nil => exact h
  | cons e es ih =>
    exact ih (h.writeBytes (hes e List.mem_cons_self)) fun e' he' => hes e' (List.mem_cons_of_mem e he')

theorem State.Inv.withTables {s : State} (h : s.Inv) (hb : s.state = .busy) {m : Memory} (hm : m.StoreOk)
    (p : BitVec 1) : ({ s with qt := m, precision := p } : State).Inv :=
  { h with
    qtOk := (State.qtOk_iff _).2 hm
    idleClear := fun hi => absurd hi (State.ne_idle_of_busy hb) }

end Sys2Proof.Machine
end

section
/-! PROOFS. Every step of the parser goes on within the invariant (spec/20_memory.md R64, R65): one lemma per operation,
then the marker step and the finish step. -/

namespace Sys2Proof.Machine

/-- A result that is a next state within the invariant. -/
def GoesOn (r : Result) : Prop := ∃ t, r = .next t ∧ t.Inv

theorem State.Inv.goesOn {s : State} (h : s.Inv) : GoesOn (.next s) := ⟨s, rfl, h⟩

theorem GoesOn.andThen {r : Result} {k : State → Result} (hr : GoesOn r) (hk : ∀ s, s.Inv → GoesOn (k s)) :
    GoesOn (andThen r k) := by
  obtain ⟨s, rfl, hs⟩ := hr
  exact hk s hs

/-- A field inside a readable buffer is read, and the operation goes on with it. -/
theorem State.Readable.goesOn_withBE16 {s : State} (hr : s.Readable) {a : Nat} (ha : a + 2 ≤ s.size.toNat)
    {k : Half → Result} (hk : ∀ v, GoesOn (k v)) : GoesOn (withBE16 s a k) := by
  obtain ⟨v, hv⟩ := hr.be16 ha
  rw [withBE16_of_some hv]
  exact hk v

/-- Where a marker operation begins: a parse in progress, `offset` after the code byte and inside the buffer (R122,
R124). -/
structure State.AtOperand (s : State) : Prop where
  inv : s.Inv
  busy : s.state = .busy
  inBuffer : s.o ≤ s.size.toNat

theorem State.AtOperand.readable {s : State} (h : s.AtOperand) : s.Readable := h.inv.contFull.readable

/-- An address inside the buffer plus a declared length keeps the bound of `offset` (R24). -/
theorem State.AtOperand.add_len_le {s : State} (h : s.AtOperand) (len : Half) :
    s.o + len.toNat ≤ s.size.toNat + 65535 := by
  have := h.inBuffer
  have := len.isLt
  omega

/-! ### The operations -/

theorem skip_goesOn {s : State} (h : s.AtOperand) : GoesOn (skip s) := by
  unfold skip
  split
  · exact (h.inv.setOffset h.busy (by omega)).goesOn
  · exact h.readable.goesOn_withBE16 (by omega) fun len => (h.inv.setOffset h.busy (h.add_len_le len)).goesOn

theorem sofCommit_inv {s : State} (h : s.Inv) (hb : s.state = .busy) {len : Nat}
    (hlen : s.o + len ≤ s.size.toNat + 65535) (i1 i2 : Component) : (sofCommit s len i1 i2).Inv := by
  unfold sofCommit
  split
  · exact h.endParse hb rfl
  · split
    · exact h.endParse hb rfl
    · exact (h.setSofFound hb).setOffset hb hlen

theorem sofComponents_inv {s : State} (h : s.Inv) (hb : s.state = .busy) (floor : Nat) {seg : SofSegment}
    (hlen : s.o + seg.len.toNat ≤ s.size.toNat + 65535) : (sofComponents floor s seg).Inv := by
  obtain ⟨i0, i1, i2, hpass⟩ := List.length_eq_three.1 (insertionPass_length floor seg.c0 seg.c1 seg.c2)
  rw [sofComponents_of_pass hpass]
  cases htype : samplingType i0.samp with
  | none => exact h.endParse hb rfl
  | some t =>
    have ht : t = 0 ∨ t = 1 := (samplingType_eq_some htype).imp And.right And.right
    exact sofCommit_inv (h.setType hb ht) hb hlen i1 i2

theorem sofChecks_inv {s : State} (h : s.Inv) (hb : s.state = .busy) (floor : Nat) {seg : SofSegment}
    (hlen : s.o + seg.len.toNat ≤ s.size.toNat + 65535) : (sofChecks floor s seg).Inv := by
  have hblocks := h.setBlocks hb (blocks seg.width) (blocks seg.height)
  unfold sofChecks
  split
  · exact h.endParse hb rfl
  split
  · exact h.endParse hb rfl
  split
  · exact h.endParse hb rfl
  dsimp only
  split
  · exact hblocks.endParse hb rfl
  · exact sofComponents_inv hblocks hb floor hlen

theorem execSof0_goesOn {s : State} (h : s.AtOperand) : GoesOn (execSof0 s) := by
  unfold execSof0 sof0
  split
  · exact (h.inv.endParse h.busy (c := .sofRepeated) rfl).goesOn
  split
  · exact (h.inv.endParse h.busy (c := .sofShortBuffer) rfl).goesOn
  · have hroom : s.o + 17 ≤ s.size.toNat := Nat.le_of_not_lt ‹_›
    obtain ⟨seg, hseg⟩ := h.readable.sofSegment hroom
    rw [hseg]
    exact (sofChecks_inv h.inv h.busy _ (h.add_len_le seg.len)).goesOn

/-- The table iteration over readable bytes writes no index outside the store, and leaves the parse in progress over the
same buffer (R65, R185, R190). -/
theorem dqtTables_inv {s : State} (h : s.Inv) (hb : s.state = .busy) {p rem : Nat}
    (hread : ∀ k, k < rem → (s.u8 (p + k)).isSome) :
    ∃ t, dqtTables rem s p rem = .next t ∧ t.Inv ∧ t.state = .busy ∧ t.size = s.size :=
  have hstore := Memory.StoreOk.storeTables (s.qtOk_iff.1 h.qtOk) fun _ => table_inStore_of_mem_tableEntries
  ⟨_, dqtTables_eq le_rfl le_rfl hread, h.withTables hb hstore _, hb, rfl⟩

/-- The clamped segment, and so what the table iteration reads, is inside the buffer (R184). -/
theorem dqtSegment_goesOn {s : State} (h : s.AtOperand) (len : Nat) : GoesOn (dqtSegment s len) := by
  have hin := h.inBuffer
  have hclamp := clampLen_eq (len := len) hin
  obtain ⟨t, ht, hinv, hbusy, hsize⟩ := dqtTables_inv h.inv h.busy
    (p := s.o + 2) (rem := clampLen s.o len s.size.toNat - 2) fun k hk => h.readable _ (by omega)
  simp only [dqtSegment, ht, andThen_next]
  exact (hinv.setOffset hbusy (by rw [hsize]; omega)).goesOn

theorem execDqt_goesOn {s : State} (h : s.AtOperand) : GoesOn (execDqt s) := by
  have hfound : s.setDqtFound.AtOperand := { h with inv := h.inv.setDqtFound h.busy }
  have hend : GoesOn (.next (s.setDqtFound.setOffset s.size.toNat)) :=
    (hfound.inv.setOffset h.busy (Nat.le_add_right _ _)).goesOn
  unfold execDqt
  dsimp only
  split
  · exact hend
  · have hfield : s.o + 2 ≤ s.size.toNat := Nat.le_of_not_lt ‹_›
    refine h.readable.goesOn_withBE16 hfield fun len => ?_
    split
    · exact hend
    · exact dqtSegment_goesOn hfound len.toNat

theorem execDri_goesOn {s : State} (h : s.AtOperand) : GoesOn (execDri s) := by
  unfold execDri
  split
  · exact h.inv.goesOn
  · have hroom : s.o + 4 ≤ s.size.toNat := Nat.le_of_not_lt ‹_›
    refine h.readable.goesOn_withBE16 (by omega) fun len => ?_
    split
    · exact h.inv.goesOn
    · exact h.readable.goesOn_withBE16 (by omega) fun v =>
        ((h.inv.setRestart h.busy v).setOffset h.busy (h.add_len_le len)).goesOn

theorem execSos_goesOn {s : State} (h : s.AtOperand) : GoesOn (execSos s) := by
  unfold execSos
  split
  · exact (h.inv.endParse h.busy (c := .sosTruncated) rfl).goesOn
  · refine h.readable.goesOn_withBE16 (by omega) fun len => ?_
    split
    · exact (h.inv.endParse h.busy (c := .scanStartBeyondEnd) rfl).goesOn
    · exact (h.inv.setHeaderLen_setSosFound h.busy (by omega)).goesOn

/-- Every operation goes on within the invariant from where dispatch starts it. -/
theorem exec_goesOn (i : Instr) {s : State} (h : s.AtOperand) : GoesOn (exec i s) := by
  cases i with
  | sof0 => exact execSof0_goesOn h
  | dht => exact skip_goesOn h
  | soi => exact h.inv.goesOn
  | eoi => exact (h.inv.setEoiSeen h.busy).goesOn
  | sos => exact execSos_goesOn h
  | dqt => exact execDqt_goesOn h
  | dri => exact execDri_goesOn h
  | appn n => exact skip_goesOn h
  | com => exact skip_goesOn h
  | other code => exact h.inv.goesOn

/-! ### The step -/

/-- A marker that the search finds puts its operation inside the buffer (R122). -/
theorem State.atOperand_of_fetch {s : State} (h : s.Inv) (hb : s.state = .busy) {i : Nat} {code : Byte}
    (hf : s.fetch = .marker i code) : (s.setOffset (i + 2)).AtOperand := by
  obtain ⟨-, -, hi, -⟩ := searchFrom_eq_marker hf
  have hbound : i + 2 ≤ s.size.toNat + 65535 := by omega
  exact ⟨h.setOffset hb hbound, hb, by rw [State.setOffset_o s (h.lt_word hbound), State.setOffset_size]; omega⟩

theorem markerStep_goesOn {s : State} (h : s.Inv) (hb : s.state = .busy) (hs : s.scanning = true) :
    GoesOn (markerStep s) := by
  obtain ⟨-, ho⟩ := s.scanning_iff.1 hs
  unfold markerStep
  split
  case h_1 i code hf => exact exec_goesOn _ (State.atOperand_of_fetch h hb hf)
  case h_2 => exact (h.setOffset hb (by omega)).goesOn
  case h_3 hf => exact absurd hf (searchFrom_readable h.contFull.readable (by omega))

theorem finishStep_inv {s : State} (h : s.Inv) (hb : s.state = .busy) : (finishStep s).Inv := by
  unfold finishStep
  split
  · exact h.endParse hb rfl
  split
  · exact h.endParse hb rfl
  split
  · exact h.endParse hb rfl
  · obtain ⟨hw, hh⟩ : s.widthBlocks ≠ 0 ∧ s.heightBlocks ≠ 0 := not_or.1 ‹_›
    exact h.succeed hb (Bool.eq_true_of_not_eq_false ‹_›) (Bool.eq_true_of_not_eq_false ‹_›) hw hh

/-- A step of the parser from a state within the invariant answers a next state within the invariant. -/
theorem step_goesOn {s : State} (h : s.Inv) : GoesOn (step s) := by
  by_cases hb : s.state = .busy
  · cases hs : s.scanning with
    | true =>
      rw [step_of_scanning hb hs]
      exact markerStep_goesOn h hb hs
    | false =>
      rw [step_of_loop_ended hb hs]
      exact (finishStep_inv h hb).goesOn
  · rw [step_of_not_busy hb]
    exact h.goesOn

end Sys2Proof.Machine
end

section
/-! PROOFS. Every command of the host keeps the invariant (spec/46_host_commands.md R233 to R242), and every run of the
two agents from reset goes on within it (spec/00_scope.md R18). -/

namespace Sys2Proof.Machine

/-- What RESET, LOAD and START have in common: over a loaded Container of legal size, cleared results with `state` at
IDLE or BUSY (R48). -/
theorem State.clearResults_inv {s : State} (hc : s.ContFull) (hz : s.SizeOk) {p : ParseState}
    (hp : p = .idle ∨ p = .busy) : ({ s.clearResults with state := p } : State).Inv := by
  have hheader : (0 : Word).toNat ≤ s.size.toNat := Nat.zero_le _
  have hqt : s.clearResults.QtOk := ⟨List.Pairwise.nil, nofun⟩
  obtain rfl | rfl := hp <;>
    exact ⟨hc, hz, hqt, Nat.zero_le _, rfl, rfl, ⟨hheader, fun _ => rfl⟩, ⟨rfl, rfl⟩, .inl rfl, nofun, fun _ => rfl⟩

theorem State.reset_inv : State.reset.Inv :=
  State.clearResults_inv (s := State.reset) rfl (Nat.zero_le _) (.inl rfl)

/-- LOAD of at most `SIZE_MAX` bytes loads the Container up to its new `size` (R45, R234). -/
theorem State.loaded_inv (s : State) {bytes : List Byte} (hb : bytes.length ≤ Config.sizeMax) :
    ({ s.clearResults with
      cont := Memory.ofBytesAt 0 bytes, size := BitVec.ofNat 32 bytes.length, state := .idle } : State).Inv := by
  have hsize : (BitVec.ofNat 32 bytes.length).toNat = bytes.length :=
    toNat_ofNat_word (hb.trans_lt (by decide))
  refine State.clearResults_inv
    (s := { s with cont := Memory.ofBytesAt 0 bytes, size := BitVec.ofNat 32 bytes.length }) ?_ ?_ (.inl rfl)
  · simp only [State.ContFull, hsize, Memory.ofBytesAt_addresses, List.range_eq_range']
  · simpa only [State.SizeOk, hsize] using hb

/-- `qfactor` is no part of the invariant, and `ClearResults()` leaves it (R48, R236). -/
theorem State.Inv.withQfactor {s : State} (h : s.Inv) (v : Byte) : ({ s with qfactor := v } : State).Inv :=
  { h with idleClear := fun hi => congrArg (fun t : State => { t with qfactor := v }) (h.idleClear hi) }

theorem hostApply_inv {cap : Nat} (hcap : Config.CapOk cap) (c : HostCmd) {s : State} (h : s.Inv) :
    (hostApply cap c s).Inv := by
  unfold hostApply
  split
  case h_1 t r hc =>
    obtain ⟨-, rfl, -⟩ | ⟨bytes, -, -, hb, -, rfl⟩ | ⟨-, -, -, rfl⟩ | ⟨v, -, -, -, rfl⟩ | ⟨-, -, -, -, rfl⟩ :=
      hostCommand_eq_some hc
    · exact State.reset_inv
    · exact State.loaded_inv s (hb.trans hcap)
    · exact State.clearResults_inv h.contFull h.sizeOk (.inr rfl)
    · exact h.withQfactor v
    · exact h
  case h_2 => exact h

theorem turn_goesOn {cap : Nat} (hcap : Config.CapOk cap) (e : Event) {s : State} (h : s.Inv) :
    GoesOn (turn cap e s) := by
  cases e with
  | parser => exact step_goesOn h
  | host c => exact (hostApply_inv hcap c h).goesOn

/-- A run of the two agents from any state within the invariant goes on within it. -/
theorem turns_goesOn {cap : Nat} (hcap : Config.CapOk cap) (es : List Event) {s : State} (h : s.Inv) :
    GoesOn (turns cap es s) := by
  induction es generalizing s with
  | nil => exact h.goesOn
  | cons e es ih => exact (turn_goesOn hcap e h).andThen fun _ => ih

/-- Settles O38: the invariant holds at reset, and every turn goes on within it. -/
theorem runsFromResetNeverStop : Obligations.RunsFromResetNeverStop := by
  intro cap es hcap
  exact turns_goesOn hcap es State.reset_inv

end Sys2Proof.Machine
end

section
/-! PROOFS. What the whole machine keeps (spec/10_state.md): the invariant at reset and after every step, and what it says
of the states that a run of the two agents from reset reaches (spec/45_sos_and_finish.md R219). -/

namespace Sys2Proof.Machine

/-- Settles O34: reset is the cleared machine over an empty Container. -/
theorem resetMeetsInvariant : Obligations.ResetMeetsInvariant := State.reset_inv

/-- Settles O33: the reset value of `qfactor` is the parameter `QFACTOR_RESET`, every other one a literal. -/
theorem resetState : Obligations.ResetState := by
  unfold Obligations.ResetState State.reset Config.qfactorReset
  rfl

theorem GoesOn.inv_of_eq_next {r : Result} (h : GoesOn r) {t : State} (ht : r = .next t) : t.Inv := by
  obtain ⟨u, rfl, hu⟩ := h
  cases ht
  exact hu

/-- Settles O35: a step from a state within the invariant goes on within it, so the state it answers is. -/
theorem stepKeepsInvariant : Obligations.StepKeepsInvariant := by
  intro s t h hstep
  exact (step_goesOn h).inv_of_eq_next hstep

/-! ### Runs from reset -/

theorem inv_of_turns_reset {cap : Nat} (hcap : Config.CapOk cap) {es : List Event} {t : State}
    (h : turns cap es State.reset = .next t) : t.Inv :=
  (turns_goesOn hcap es State.reset_inv).inv_of_eq_next h

theorem Cause.eq_noCause_iff (c : Cause) : c = .noCause ↔ c.outcome = none := by
  cases c <;> simp [Cause.outcome]

/-- `cause` is NONE exactly outside FAIL and FAULT (R22). -/
theorem State.Inv.cause_eq_noCause_iff {s : State} (h : s.Inv) :
    s.cause = .noCause ↔ s.state ≠ .fail ∧ s.state ≠ .fault := by
  rw [Cause.eq_noCause_iff, h.causeOk]
  cases s.state <;> simp

theorem driFlag_eq_true_iff (v : Half) : driFlag v = true ↔ v.toNat ≠ 0 := by
  rw [driFlag, decide_eq_true_iff]
  exact not_congr BitVec.toNat_inj.symm

/-- After OK the type is one of the four legal values, with 64 added exactly where an interval was found (R219). -/
theorem State.Inv.type_of_ok {s : State} (h : s.Inv) (hok : s.state = .ok) :
    s.type.toNat ∈ [0, 1, 64, 65] ∧ (64 ≤ s.type.toNat ↔ s.driFound = true) := by
  have htype := h.typeOk
  rw [State.TypeOk, if_pos hok] at htype
  obtain ht | ht := htype <;> cases hdri : s.driFound <;> simp [ht, hdri]

/-- Outside OK the type is 0 or 1 (R33, R168). -/
theorem State.Inv.type_of_ne_ok {s : State} (h : s.Inv) (hok : s.state ≠ .ok) : s.type.toNat ≤ 1 := by
  obtain ht | ht := (s.typeOk_iff_of_ne_ok hok).1 h.typeOk <;> simp [ht]

/-- A block count that is not zero is 1 to 255 (R101). -/
theorem byte_range_of_ne_zero {b : Byte} (h : b ≠ 0) : 1 ≤ b.toNat ∧ b.toNat ≤ 255 := by
  have := b.isLt
  have : b.toNat ≠ 0 := fun hz => h (BitVec.eq_of_toNat_eq hz)
  omega

/-- Settles O45: every state that a run from reset reaches is within the invariant, which says all of it after OK. -/
theorem okResultIsLossless : Obligations.OkResultIsLossless := by
  intro cap es t hcap hrun hok
  have h := inv_of_turns_reset hcap hrun
  have hview := h.viewOk
  rw [State.ViewOk, if_pos hok] at hview
  obtain ⟨hoff, hsum⟩ := hview
  obtain ⟨htype, hdri⟩ := h.type_of_ok hok
  obtain ⟨hsof, hdqt, hw, hh⟩ := h.okFound hok
  obtain ⟨hw1, hw255⟩ := byte_range_of_ne_zero hw
  obtain ⟨hh1, hh255⟩ := byte_range_of_ne_zero hh
  have hcause : t.cause = .noCause := h.cause_eq_noCause_iff.2 (by simp [hok])
  exact ⟨hoff, hsum, by omega, htype, hdri, hw1, hw255, hh1, hh255, hsof, hdqt, by rw [hcause]; rfl⟩

/-- Settles O46: every state that a run from reset reaches is within the invariant, which says all of it. -/
theorem failedParseHasNoScanData : Obligations.FailedParseHasNoScanData := by
  intro cap es t hcap hrun
  have h := inv_of_turns_reset hcap hrun
  refine ⟨fun hok => ?_, h.cause_eq_noCause_iff, by rw [h.driIff, driFlag_eq_true_iff]⟩
  obtain ⟨hoff, hlen⟩ := (t.viewOk_iff_of_ne_ok hok).1 h.viewOk
  exact ⟨hoff, hlen, h.type_of_ne_ok hok⟩

end Sys2Proof.Machine
end

section
/-! PROOFS. What each marker operation can write, said once per operation, and so which operation writes each register
(spec/10_state.md R20 to R44); what a step leaves of the host's state (R275). -/

namespace Sys2Proof.Machine

/-! ### The frame of each operation -/

theorem skip_frame {s t : State} (h : skip s = .next t) : t = { s with offset := t.offset } := by
  obtain ⟨-, rfl⟩ | ⟨-, len, -, rfl⟩ := skip_eq_next h <;> rfl

/-- The registers that the checks and the commit of SOF0 write (R163 to R169), the others as in `s`. -/
def State.sofFrame (s t : State) : State :=
  { s with
    state := t.state, cause := t.cause, offset := t.offset, sofFound := t.sofFound,
    widthBlocks := t.widthBlocks, heightBlocks := t.heightBlocks, type := t.type }

theorem sofCommit_frame (s : State) (len : Nat) (i1 i2 : Component) :
    sofCommit s len i1 i2 = s.sofFrame (sofCommit s len i1 i2) := by
  unfold sofCommit
  split
  · rfl
  split <;> rfl

theorem sofComponents_frame (floor : Nat) (s : State) (seg : SofSegment) :
    sofComponents floor s seg = s.sofFrame (sofComponents floor s seg) := by
  obtain ⟨i0, i1, i2, hpass⟩ := List.length_eq_three.1 (insertionPass_length floor seg.c0 seg.c1 seg.c2)
  rw [sofComponents_of_pass hpass]
  cases samplingType i0.samp with
  | none => rfl
  | some t => exact sofCommit_frame (s.setType t) seg.len.toNat i1 i2

theorem sofChecks_frame (floor : Nat) (s : State) (seg : SofSegment) :
    sofChecks floor s seg = s.sofFrame (sofChecks floor s seg) := by
  unfold sofChecks
  split
  · rfl
  split
  · rfl
  split
  · rfl
  dsimp only
  split
  · rfl
  · exact sofComponents_frame floor (s.setBlocks (blocks seg.width) (blocks seg.height)) seg

/-- All that SOF0 can do, where it answers a next state: one of the two early ends, or the checks on its 17 bytes (R161,
R162). -/
theorem execSof0_eq_next {s t : State} (h : execSof0 s = .next t) :
    t = s.raiseFault .sofRepeated ∨ t = s.raiseFail .sofShortBuffer ∨
    ∃ seg, s.sofSegment s.o = some seg ∧ t = sofChecks Config.shiftFloor s seg := by
  unfold execSof0 sof0 at h
  split at h
  · cases h
    exact .inl rfl
  split at h
  · cases h
    exact .inr (.inl rfl)
  split at h
  · cases h
    exact .inr (.inr ⟨_, ‹_›, rfl⟩)
  · cases h

theorem execSof0_frame {s t : State} (h : execSof0 s = .next t) : t = s.sofFrame t := by
  obtain rfl | rfl | ⟨seg, -, rfl⟩ := execSof0_eq_next h
  · rfl
  · rfl
  · exact sofChecks_frame _ s seg

/-- All that DQT can do, where it answers a next state: the end of the scan (R182, R183), or the table iteration and the
end of the clamped segment (R186). -/
theorem execDqt_eq_next {s t : State} (h : execDqt s = .next t) :
    t = s.setDqtFound.setOffset s.size.toNat ∨
    ∃ (len : Half) (m : Memory) (p : BitVec 1),
      s.be16 s.o = some len ∧ 2 ≤ len.toNat ∧ s.o + 2 ≤ s.size.toNat ∧
      t = ({ s.setDqtFound with qt := m, precision := p } : State).setOffset
        (s.o + clampLen s.o len.toNat s.size.toNat) := by
  unfold execDqt at h
  dsimp only at h
  split at h
  · cases h
    exact .inl rfl
  obtain ⟨len, hlen, h⟩ := withBE16_eq_next h
  split at h
  · cases h
    exact .inl rfl
  obtain ⟨u, htables, h⟩ := andThen_eq_next.1 h
  have hu := dqtTables_frame htables
  cases h
  have hfield : s.o + 2 ≤ s.size.toNat := Nat.le_of_not_lt ‹_›
  have hlength : 2 ≤ len.toNat := Nat.le_of_not_lt ‹_›
  exact .inr ⟨len, u.qt, u.precision, hlen, hlength, hfield, by rw [hu]; rfl⟩

theorem execDqt_frame {s t : State} (h : execDqt s = .next t) :
    t = { s with offset := t.offset, dqtFound := true, qt := t.qt, precision := t.precision } := by
  obtain rfl | ⟨len, m, p, -, -, -, rfl⟩ := execDqt_eq_next h <;> rfl

/-- All that DRI can do, where it answers a next state: nothing (R201, R202), or the interval with its flag and past the
segment (R203). -/
theorem execDri_eq_next {s t : State} (h : execDri s = .next t) :
    t = s ∨ ∃ len value : Half, s.be16 s.o = some len ∧ s.be16 (s.o + 2) = some value ∧
      t = (s.setRestart value).setOffset (s.o + len.toNat) := by
  unfold execDri at h
  split at h
  · cases h
    exact .inl rfl
  obtain ⟨len, hlen, h⟩ := withBE16_eq_next h
  split at h
  · cases h
    exact .inl rfl
  obtain ⟨value, hvalue, h⟩ := withBE16_eq_next h
  cases h
  exact .inr ⟨len, value, hlen, hvalue, rfl⟩

theorem execDri_frame {s t : State} (h : execDri s = .next t) :
    t = { s with offset := t.offset, driFound := t.driFound, restartInterval := t.restartInterval } := by
  obtain rfl | ⟨len, value, -, -, rfl⟩ := execDri_eq_next h <;> rfl

/-- SOS does not move `offset`, whether it faults or completes (R211 to R213). -/
theorem execSos_frame {s t : State} (h : execSos s = .next t) :
    t = { s with state := t.state, cause := t.cause, headerLen := t.headerLen, sosFound := t.sosFound } := by
  unfold execSos at h
  split at h
  · cases h; rfl
  obtain ⟨len, -, h⟩ := withBE16_eq_next h
  split at h
  · cases h; rfl
  · cases h; rfl

/-! ### The writers of the registers -/

/-- Settles O44: each operation's frame holds the registers that its rules name and no other. -/
theorem eachRegisterHasItsWriter : Obligations.EachRegisterHasItsWriter := by
  intro i s t h
  cases i with
  | sof0 => rw [execSof0_frame h]; simp [State.sofFrame]
  | dht => rw [skip_frame h]; simp
  | soi => cases h; simp
  | eoi => cases h; simp
  | sos => rw [execSos_frame h]; simp
  | dqt => rw [execDqt_frame h]; simp
  | dri => rw [execDri_frame h]; simp
  | appn n => rw [skip_frame h]; simp
  | com => rw [skip_frame h]; simp
  | other code => cases h; simp

theorem exec_hostState {i : Instr} {s t : State} (h : exec i s = .next t) :
    t.cont = s.cont ∧ t.size = s.size ∧ t.qfactor = s.qfactor := by
  obtain ⟨-, -, -, -, -, -, hcont, hsize, hqfactor, -, -⟩ := eachRegisterHasItsWriter i s t h
  exact ⟨hcont, hsize, hqfactor⟩

/-- Settles O43: no operation and no finish step writes the host's state, and the search moves `offset` only. -/
theorem parserNeverWritesHostState : Obligations.ParserNeverWritesHostState := by
  intro s t h
  by_cases hb : s.state = .busy
  · cases hs : s.scanning with
    | true =>
      rw [step_of_scanning hb hs] at h
      obtain ⟨i, code, -, hexec⟩ | ⟨-, rfl⟩ := markerStep_eq_next h
      · exact exec_hostState (s := s.setOffset (i + 2)) hexec
      · exact ⟨rfl, rfl, rfl⟩
    | false =>
      rw [step_of_loop_ended hb hs] at h
      cases h
      rw [finishStep_frame s]
      exact ⟨rfl, rfl, rfl⟩
  · rw [step_of_not_busy hb] at h
    cases h
    exact ⟨rfl, rfl, rfl⟩

end Sys2Proof.Machine
end

section
/-! PROOFS. `offset` never decreases while a parse is in progress, and a marker step passes the marker it found
(spec/10_state.md R24, R25). -/

namespace Sys2Proof.Machine

/-- The register holds every value that the bound of `offset` admits (R15, R24). -/
theorem State.AtOperand.setOffset_o {s : State} (h : s.AtOperand) {n : Nat} (hn : n ≤ s.size.toNat + 65535) :
    (s.setOffset n).o = n :=
  s.setOffset_o (h.inv.lt_word hn)

theorem State.AtOperand.le_setOffset_add_len {s : State} (h : s.AtOperand) (len : Half) :
    s.o ≤ (s.setOffset (s.o + len.toNat)).o := by
  rw [h.setOffset_o (h.add_len_le len)]
  exact Nat.le_add_right _ _

theorem State.AtOperand.le_setOffset_size {s : State} (h : s.AtOperand) : s.o ≤ (s.setOffset s.size.toNat).o := by
  rw [h.setOffset_o (Nat.le_add_right _ _)]
  exact h.inBuffer

theorem skip_o_le {s t : State} (h : s.AtOperand) (hskip : skip s = .next t) : s.o ≤ t.o := by
  obtain ⟨-, rfl⟩ | ⟨-, len, -, rfl⟩ := skip_eq_next hskip
  · exact h.le_setOffset_size
  · exact h.le_setOffset_add_len len

/-- The commit of SOF0 moves `offset` past the segment, a failed check leaves it (R169, R269). -/
theorem sofCommit_offset (s : State) (len : Nat) (i1 i2 : Component) :
    (sofCommit s len i1 i2).offset = s.offset ∨
    (sofCommit s len i1 i2).offset = (s.setOffset (s.o + len)).offset := by
  unfold sofCommit
  split
  · exact .inl rfl
  split
  · exact .inl rfl
  · exact .inr rfl

theorem sofComponents_offset (floor : Nat) (s : State) (seg : SofSegment) :
    (sofComponents floor s seg).offset = s.offset ∨
    (sofComponents floor s seg).offset = (s.setOffset (s.o + seg.len.toNat)).offset := by
  obtain ⟨i0, i1, i2, hpass⟩ := List.length_eq_three.1 (insertionPass_length floor seg.c0 seg.c1 seg.c2)
  rw [sofComponents_of_pass hpass]
  cases samplingType i0.samp with
  | none => exact .inl rfl
  | some t => exact sofCommit_offset (s.setType t) seg.len.toNat i1 i2

theorem sofChecks_offset (floor : Nat) (s : State) (seg : SofSegment) :
    (sofChecks floor s seg).offset = s.offset ∨
    (sofChecks floor s seg).offset = (s.setOffset (s.o + seg.len.toNat)).offset := by
  unfold sofChecks
  split
  · exact .inl rfl
  split
  · exact .inl rfl
  split
  · exact .inl rfl
  dsimp only
  split
  · exact .inl rfl
  · exact sofComponents_offset floor (s.setBlocks (blocks seg.width) (blocks seg.height)) seg

theorem State.o_congr {s t : State} (h : t.offset = s.offset) : t.o = s.o := congrArg BitVec.toNat h

theorem execSof0_o_le {s t : State} (h : s.AtOperand) (hexec : execSof0 s = .next t) : s.o ≤ t.o := by
  obtain rfl | rfl | ⟨seg, -, rfl⟩ := execSof0_eq_next hexec
  · exact le_rfl
  · exact le_rfl
  · obtain hsame | hpast := sofChecks_offset Config.shiftFloor s seg
    · exact (State.o_congr hsame).ge
    · rw [State.o_congr hpast]
      exact h.le_setOffset_add_len seg.len

/-- The clamped segment lies between `offset` and the end of the buffer (R184, R186). -/
theorem execDqt_o_le {s t : State} (h : s.AtOperand) (hexec : execDqt s = .next t) : s.o ≤ t.o := by
  obtain rfl | ⟨len, m, p, -, -, -, rfl⟩ := execDqt_eq_next hexec
  · exact h.le_setOffset_size
  · have hclamp := clampLen_eq (len := len.toNat) h.inBuffer
    have hin := h.inBuffer
    calc s.o ≤ s.o + clampLen s.o len.toNat s.size.toNat := Nat.le_add_right _ _
      _ = (s.setOffset (s.o + clampLen s.o len.toNat s.size.toNat)).o := (h.setOffset_o (by omega)).symm

theorem execDri_o_le {s t : State} (h : s.AtOperand) (hexec : execDri s = .next t) : s.o ≤ t.o := by
  obtain rfl | ⟨len, value, -, -, rfl⟩ := execDri_eq_next hexec
  · exact le_rfl
  · exact h.le_setOffset_add_len len

/-- No operation moves `offset` back from where dispatch starts it (R25). -/
theorem exec_o_le {i : Instr} {s t : State} (h : s.AtOperand) (hexec : exec i s = .next t) : s.o ≤ t.o := by
  cases i with
  | sof0 => exact execSof0_o_le h hexec
  | dht => exact skip_o_le h hexec
  | soi => cases hexec; exact le_rfl
  | eoi => cases hexec; exact le_rfl
  | sos => rw [execSos_frame hexec]; exact le_rfl
  | dqt => exact execDqt_o_le h hexec
  | dri => exact execDri_o_le h hexec
  | appn n => exact skip_o_le h hexec
  | com => exact skip_o_le h hexec
  | other code => cases hexec; exact le_rfl

/-- A marker step passes the two bytes of the marker it finds, or goes to the end of the buffer (R122, R123, R125). -/
theorem markerStep_progress {s t : State} (h : s.Inv) (hb : s.state = .busy) (hstep : markerStep s = .next t) :
    s.o + 2 ≤ t.o ∨ t.o = s.size.toNat := by
  obtain ⟨i, code, hfetch, hexec⟩ | ⟨-, rfl⟩ := markerStep_eq_next hstep
  · obtain ⟨hfrom, -, hin, -⟩ := searchFrom_eq_marker hfetch
    have hmoved : i + 2 ≤ t.o := by
      rw [← s.setOffset_o (h.lt_word (n := i + 2) (by omega))]
      exact exec_o_le (State.atOperand_of_fetch h hb hfetch) hexec
    exact .inl (by omega)
  · exact .inr rfl

theorem finishStep_o (s : State) : (finishStep s).o = s.o := by
  rw [finishStep_frame s]
  rfl

/-- Settles O39: a marker step makes progress, and the finish step leaves `offset`. -/
theorem offsetMakesProgress : Obligations.OffsetMakesProgress := by
  intro s t h hb hstep
  cases hs : s.scanning with
  | true =>
    obtain ⟨-, hlt⟩ := s.scanning_iff.1 hs
    rw [step_of_scanning hb hs] at hstep
    have hprogress := markerStep_progress h hb hstep
    exact ⟨by omega, fun _ _ => by omega⟩
  | false =>
    rw [step_of_loop_ended hb hs] at hstep
    cases hstep
    have hended : ¬(s.sosFound = false ∧ s.o < s.size.toNat) := by simp [← s.scanning_iff, hs]
    exact ⟨(finishStep_o s).ge, fun hsos hlt => absurd ⟨hsos, hlt⟩ hended⟩

end Sys2Proof.Machine
end

section
/-! PROOFS. The encodings of `state` and `cause` (spec/10_state.md R21, spec/60_exceptions.md R261) and the STATUS word
(R41, R237). -/

namespace Sys2Proof.Machine

/-- Settles O31: the codes by evaluation, the class of each cause by the fifteen rows of the table. -/
theorem causeCodesAndClasses : Obligations.CauseCodesAndClasses := by
  refine ⟨rfl, rfl, fun c => ?_⟩
  cases c <;> decide

theorem ParseState.code_lt (p : ParseState) : p.code < 8 := by
  cases p <;> decide

theorem State.statusWord_of_busy {s : State} (h : s.state = .busy) : s.statusWord = 1 := by
  simp only [State.statusWord, h]
  rfl

/-- The low byte of STATUS outside BUSY: STATE in bits 2:0 and the five flags above it (R41). -/
def State.statusLow (s : State) : BitVec (1 + (1 + (1 + (1 + (1 + 3))))) :=
  BitVec.ofBool s.eoiSeen ++ (BitVec.ofBool s.driFound ++ (BitVec.ofBool s.sosFound ++
    (BitVec.ofBool s.dqtFound ++ (BitVec.ofBool s.sofFound ++ BitVec.ofNat 3 s.state.code))))

theorem State.statusWord_of_not_busy {s : State} (h : s.state ≠ .busy) :
    s.statusWord = s.cause.code ++ s.statusLow := by
  unfold State.statusWord State.statusLow
  cases hs : s.state <;> simp_all

/-- Each flag stands in its bit of STATUS (R41). -/
theorem State.statusWord_flags {s : State} (h : s.state ≠ .busy) :
    s.statusWord.getLsbD 3 = s.sofFound ∧ s.statusWord.getLsbD 4 = s.dqtFound ∧
    s.statusWord.getLsbD 5 = s.sosFound ∧ s.statusWord.getLsbD 6 = s.driFound ∧
    s.statusWord.getLsbD 7 = s.eoiSeen := by
  rw [State.statusWord_of_not_busy h]
  simp only [State.statusLow, BitVec.getLsbD_append, BitVec.getLsbD_ofBool]
  simp

theorem toNat_append_div {m n : Nat} (x : BitVec m) (y : BitVec n) : (x ++ y).toNat / 2 ^ n = x.toNat := by
  rw [BitVec.toNat_append, ← Nat.shiftLeft_add_eq_or_of_lt y.isLt, Nat.shiftLeft_eq, Nat.mul_comm,
    Nat.mul_add_div (Nat.two_pow_pos n), Nat.div_eq_of_lt y.isLt, Nat.add_zero]

/-- CAUSE stands in bits 15:8 of STATUS (R41). -/
theorem State.statusWord_cause {s : State} (h : s.state ≠ .busy) : s.statusWord.toNat / 256 = s.cause.code.toNat := by
  rw [State.statusWord_of_not_busy h]
  exact toNat_append_div s.cause.code s.statusLow

/-- STATE stands in bits 2:0 of STATUS, also while BUSY (R41). -/
theorem State.statusWord_state (s : State) : s.statusWord.toNat % 8 = s.state.code := by
  by_cases hb : s.state = .busy
  · rw [State.statusWord_of_busy hb, hb]
    rfl
  · have hlow : (s.cause.code ++ s.statusLow).setWidth 3 = BitVec.ofNat 3 s.state.code := by
      simp only [State.statusLow, BitVec.setWidth_append]
      simp
    have hcode := congrArg BitVec.toNat hlow
    rw [BitVec.toNat_setWidth, BitVec.toNat_ofNat, Nat.mod_eq_of_lt s.state.code_lt] at hcode
    rw [State.statusWord_of_not_busy hb]
    exact hcode

/-- Settles O51: RD_STATUS returns the STATUS word, whose fields are read off its layout. -/
theorem statusWordLayout : Obligations.StatusWordLayout := by
  intro cap s
  refine ⟨s.statusWord, rfl, s.statusWord_state, State.statusWord_of_busy, fun hb => ?_⟩
  obtain ⟨hsof, hdqt, hsos, hdri, heoi⟩ := State.statusWord_flags hb
  exact ⟨hsof, hdqt, hsos, hdri, heoi, State.statusWord_cause hb⟩

end Sys2Proof.Machine
end

section
/-! PROOFS. The memory primitives (spec/20_memory.md R62, R63, R65), and that the guards of R64 and R65 keep every step
within them. -/

namespace Sys2Proof.Machine

/-- A field whose second byte stands at or above `size` is no access that exists (R63). -/
theorem State.be16_of_le {s : State} {a : Nat} (h : s.size.toNat ≤ a + 1) : s.be16 a = none := by
  refine Option.eq_none_iff_forall_ne_some.2 fun v hv => ?_
  obtain ⟨_, lo, -, hlo, -⟩ := State.be16_eq_some.1 hv
  exact Nat.not_lt.2 h (State.lt_size_of_u8 hlo)

theorem writeQt_of_lt (s : State) {i : Nat} (v : Byte) (h : i < Config.qtCap) :
    writeQt s i v = .next (s.setQtByte i v) := if_pos h

theorem writeQt_of_le (s : State) {i : Nat} (v : Byte) (h : Config.qtCap ≤ i) :
    writeQt s i v = .fault .tableStoreWrite := if_neg (Nat.not_lt.2 h)

/-- Settles O5: a byte is the Container's below `size`, and a field is its two bytes, each read so. -/
theorem fieldsAreBigEndian : Obligations.FieldsAreBigEndian := by
  intro s a hi lo
  refine ⟨State.u8_of_lt, State.u8_of_le, State.be16_of_le, fun hlt hhi hlo => ⟨be hi lo, ?_, be_toNat hi lo⟩⟩
  have hhi' : s.u8 a = some hi := (State.u8_of_lt (Nat.lt_of_succ_lt hlt)).trans hhi
  have hlo' : s.u8 (a + 1) = some lo := (State.u8_of_lt hlt).trans hlo
  exact State.be16_eq_some.2 ⟨hi, lo, hhi', hlo', rfl⟩

/-- Settles O6: inside the store the write is one byte of the memory, above it the access does not exist. -/
theorem tableStoreWriteIsOneByte : Obligations.TableStoreWriteIsOneByte := by
  intro s i v
  refine ⟨fun hi => ⟨s.setQtByte i v, writeQt_of_lt s v (Nat.lt_succ_of_le hi), rfl, ?_, fun j hj => ?_⟩,
    writeQt_of_le s v⟩
  · rw [State.setQtByte_qt, Memory.read_write, if_pos rfl]
  · rw [State.setQtByte_qt, Memory.read_write, if_neg hj]

/-- Settles O37: a step from a state within the invariant goes on, so it meets no access that does not exist. -/
theorem stepNeverStops : Obligations.StepNeverStops := by
  intro s h
  obtain ⟨t, ht, -⟩ := step_goesOn h
  exact ⟨t, ht⟩

end Sys2Proof.Machine
end

section
/-! PROOFS. DQT over a readable buffer by the list reading of its segment, and the segment of exactly one table
(spec/43_dqt.md R181 to R187). -/

namespace Sys2Proof.Machine

/-- With its length field inside the buffer and a length of at least 2, DQT goes on to the segment (R181 to R183). -/
theorem execDqt_of_length {s : State} {len : Half} (ho : s.o + Config.dqtMin ≤ s.size.toNat)
    (hlen : s.be16 s.o = some len) (hmin : Config.dqtMin ≤ len.toNat) :
    execDqt s = dqtSegment s.setDqtFound len.toNat := by
  unfold execDqt
  dsimp only
  rw [if_neg (Nat.not_lt.2 ho), withBE16_of_some hlen, if_neg (Nat.not_lt.2 hmin)]

/-- Over a readable buffer the tables of the clamped segment are stored, and `offset` goes to its end (R184 to R187). -/
theorem dqtSegment_eq {s : State} {len l : Nat} {entries : List (Byte × List Byte)} (hr : s.Readable)
    (ho : s.o ≤ s.size.toNat) (hl : clampLen s.o len s.size.toNat = l)
    (hentries : tableEntries (l - 2) (s.bytesAt (s.o + 2) (l - 2)) = entries) :
    dqtSegment s len = .next (({ s with
      qt := storeTables s.qt entries, precision := lastPrecision s.precision entries } : State).setOffset (s.o + l)) := by
  have hclamp := clampLen_eq (len := len) ho
  have htables := dqtTables_eq (p := s.o + 2) (le_refl (l - 2)) le_rfl fun k hk => hr (s.o + 2 + k) (by omega)
  unfold dqtSegment
  dsimp only
  rw [hl, htables, hentries, andThen_next]

/-- Bytes that are exactly one table with a valid id are read as that table alone (R185). -/
theorem tableEntries_one {b : Byte} {bs : List Byte} (hid : tableId b ≠ Config.qtIdInvalid)
    (hlen : bs.length = tableSize b) (fuel : Nat) : tableEntries (fuel + 1) (b :: bs) = [(b, bs)] := by
  have hend : tableEntries fuel [] = [] := by cases fuel <;> rfl
  rw [tableEntries_cons, if_neg hid, if_neg (by omega), ← hlen, List.take_length, List.drop_length, hend]

/-- The precision flag tells the table's size (R187). -/
theorem precisionFlag_eq (b : Byte) : precisionFlag b = if tableSize b = 64 then 0 else 1 := by
  unfold precisionFlag tableSize
  split <;> rfl

/-- A DQT segment of exactly one table inside the buffer: the table's bytes go to the store from index
`id * table_size` up (R185, R187). -/
theorem execDqt_one {s : State} {len : Half} {b : Byte} (hr : s.Readable) (hlen : s.be16 s.o = some len)
    (hb : s.u8 (s.o + 2) = some b) (hid : tableId b ≠ Config.qtIdInvalid) (hone : len.toNat = tableSize b + 3)
    (hin : s.o + len.toNat ≤ s.size.toNat) :
    execDqt s = .next (({ s.setDqtFound with
      qt := s.qt.writeBytes (tableId b * tableSize b) (s.bytesAt (s.o + 3) (tableSize b))
      precision := precisionFlag b } : State).setOffset (s.o + len.toNat)) := by
  have hclamp : clampLen s.o len.toNat s.size.toNat = len.toNat := if_neg (Nat.not_lt.2 hin)
  have hbytes : (s.bytesAt (s.o + 3) (tableSize b)).length = tableSize b :=
    State.bytesAt_length fun k hk => hr _ (by omega)
  have hentries : tableEntries (len.toNat - 2) (s.bytesAt (s.o + 2) (len.toNat - 2)) =
      [(b, s.bytesAt (s.o + 3) (tableSize b))] := by
    rw [show len.toNat - 2 = tableSize b + 1 by omega, State.bytesAt_cons hb]
    exact tableEntries_one hid hbytes _
  have htwo : 2 ≤ len.toNat := by omega
  rw [execDqt_of_length ((Nat.add_le_add_left htwo s.o).trans hin) hlen htwo,
    dqtSegment_eq (s := s.setDqtFound) hr (Nat.le_of_add_right_le hin) hclamp hentries]
  simp only [storeTables, List.foldl_cons, List.foldl_nil, hbytes]
  rfl

/-- Settles O21: the store after one table is one run of bytes, read back address by address. -/
theorem dqtCopiesOneTable : Obligations.DqtCopiesOneTable := by
  rintro s len b id ts hsize hr hlen hb rfl hid rfl hone hin
  rw [← tableSize_eq] at hone ⊢
  have hfits : s.o + len.toNat < 2 ^ 32 := Nat.lt_of_le_of_lt (hin.trans hsize) (by decide)
  have hread : ∀ k, k < tableSize b → (s.u8 (s.o + 3 + k)).isSome := fun k hk => hr _ (by omega)
  refine ⟨_, BitVec.ofNat 32 (s.o + len.toNat), execDqt_one hr hlen hb hid hone hin, toNat_ofNat_word hfits, ?_,
    fun i => ?_⟩
  · rw [← precisionFlag_eq]
    rfl
  · rw [State.setOffset_qt, Memory.read_writeBytes, State.bytesAt_length hread]
    refine if_ctx_congr Iff.rfl (fun ⟨hfirst, hlast⟩ => ?_) fun _ => rfl
    exact State.getElem?_bytesAt hread (Nat.sub_lt_left_of_lt_add hfirst hlast)

end Sys2Proof.Machine
end

section
/-! PROOFS. Markers (spec/30_encoding.md R90, R92, R103, R107): the code table pairs the code bytes with the well-formed
instructions one to one, and the rows of the opcode table select as it does. -/

namespace Sys2Proof

/-! ### The bytes of a marker -/

@[simp] theorem decode_markerStart (c : Byte) (rest : List Byte) :
    decode (Config.markerStart :: c :: rest) = .ok (decodeCode c, rest) := rfl

/-- What decodes is the marker-start byte, a code byte and the rest (R90). -/
theorem decode_eq_ok {bytes rest : List Byte} {i : Instr} :
    decode bytes = .ok (i, rest) ↔ ∃ c, bytes = Config.markerStart :: c :: rest ∧ decodeCode c = i := by
  refine ⟨fun h => ?_, fun ⟨c, hbytes, hcode⟩ => by rw [hbytes, decode_markerStart, hcode]⟩
  match bytes with
  | [] => cases h
  | [b] =>
    rw [decode] at h
    split at h <;> cases h
  | b :: c :: bs =>
    rw [decode] at h
    split at h
    · next hb =>
      cases h
      exact ⟨c, by rw [hb], rfl⟩
    · cases h

/-! ### The codes 0xE0 to 0xEF of APPn -/

/-- The two nibbles of an APPn code do not overlap, so it is the sum that R92 writes. -/
theorem Instr.code_appn (n : BitVec 4) : (Instr.appn n).code = 0xE0 + n.setWidth 8 := by
  have hlow : n.setWidth 8 = 0#4 ++ n := by simp [BitVec.setWidth_eq_append]
  have hhigh : (0xE0 : Byte) = 0xE#4 ++ 0#4 := rfl
  have hand : (0xE0 : Byte) &&& n.setWidth 8 = 0 := by
    rw [hlow, hhigh, BitVec.and_append, BitVec.and_zero, BitVec.zero_and]
    rfl
  exact (BitVec.add_eq_or_of_and_eq_zero _ _ hand).symm

theorem shiftRight_eq_app_iff (c : Byte) : c >>> 4 = 0xE ↔ 0xE0 ≤ c ∧ c ≤ 0xEF := by
  bv_omega

theorem shiftRight_code_appn (n : BitVec 4) : (Instr.appn n).code >>> 4 = 0xE := by
  rw [Instr.code_appn]
  bv_omega

theorem setWidth_code_appn (n : BitVec 4) : (Instr.appn n).code.setWidth 4 = n := by
  rw [Instr.code_appn]
  bv_omega

theorem code_appn_setWidth {c : Byte} (h : c >>> 4 = 0xE) : (Instr.appn (c.setWidth 4)).code = c := by
  rw [Instr.code_appn]
  bv_omega

/-! ### The code table -/

/-- The operations of the eight rows with a single code (R92). -/
def singleCodeInstrs : List Instr := [.sof0, .dht, .soi, .eoi, .sos, .dqt, .dri, .com]

theorem wf_of_mem_singleCodeInstrs : ∀ i ∈ singleCodeInstrs, i.wf = true := by decide

/-- A named code is the code of one of the eight operations or an APPn code (R92). -/
theorem isNamedCode_iff (c : Byte) :
    isNamedCode c = true ↔ c ∈ singleCodeInstrs.map Instr.code ∨ c >>> 4 = 0xE := by
  simp [isNamedCode, singleCodeInstrs, Instr.code, or_assoc]

theorem Instr.wf_other (c : Byte) : (Instr.other c).wf = true ↔ isNamedCode c = false := by
  simp [Instr.wf]

/-- No single code is in the APPn range, so a code of the range reaches that row of the table (R92). -/
theorem decodeCode_of_app {c : Byte} (h : c >>> 4 = 0xE) : decodeCode c = .appn (c.setWidth 4) := by
  have hne : ∀ k : Byte, k >>> 4 ≠ 0xE → c ≠ k := fun k hk hc => hk (hc ▸ h)
  simp [decodeCode, h, hne]

/-- A code outside the named rows selects OTHER with that code (R92, R103). -/
theorem decodeCode_of_not_named {c : Byte} (h : isNamedCode c = false) : decodeCode c = .other c := by
  simp only [isNamedCode, Bool.or_eq_false_iff, decide_eq_false_iff_not] at h
  simp only [decodeCode, h, if_false]

/-- The code of a well-formed operation selects it. -/
theorem decodeCode_code {i : Instr} (h : i.wf = true) : decodeCode i.code = i := by
  cases i with
  | appn n => rw [decodeCode_of_app (shiftRight_code_appn n), setWidth_code_appn]
  | other c => exact decodeCode_of_not_named ((Instr.wf_other c).1 h)
  | _ => rfl

/-- Every byte is the code of a well-formed operation: the table is total (R92, R103). -/
theorem exists_wf_code (c : Byte) : ∃ i : Instr, i.wf = true ∧ i.code = c := by
  cases hnamed : isNamedCode c with
  | false => exact ⟨.other c, (Instr.wf_other c).2 hnamed, rfl⟩
  | true =>
    obtain hsingle | happ := (isNamedCode_iff c).1 hnamed
    · obtain ⟨i, hi, hcode⟩ := List.mem_map.1 hsingle
      exact ⟨i, wf_of_mem_singleCodeInstrs i hi, hcode⟩
    · exact ⟨.appn (c.setWidth 4), rfl, code_appn_setWidth happ⟩

/-- What a code selects is well formed and has that code. -/
theorem wf_and_code_decodeCode (c : Byte) : (decodeCode c).wf = true ∧ (decodeCode c).code = c := by
  obtain ⟨i, hwf, rfl⟩ := exists_wf_code c
  rw [decodeCode_code hwf]
  exact ⟨hwf, rfl⟩

theorem decode_encode {i : Instr} (h : i.wf = true) (rest : List Byte) : decode (encode i ++ rest) = .ok (i, rest) :=
  decode_eq_ok.2 ⟨i.code, rfl, decodeCode_code h⟩

/-- Settles O4: the code table is a bijection onto the well-formed operations, and the start byte is written and read
alike. -/
theorem decodeEncodeRoundTrip : Obligations.DecodeEncodeRoundTrip := by
  refine ⟨fun i rest h => decode_encode h rest, fun bytes rest i h => ?_⟩
  obtain ⟨c, rfl, rfl⟩ := decode_eq_ok.1 h
  obtain ⟨hwf, hcode⟩ := wf_and_code_decodeCode c
  exact ⟨hwf, by rw [encode, hcode]; rfl⟩

/-- Settles O1: each written marker is an encoded operation and what follows it. -/
theorem specMarkersDecode : Obligations.SpecMarkersDecode :=
  ⟨decode_encode (i := .sof0) rfl _, decode_encode (i := .dht) rfl _, decode_encode (i := .soi) rfl _,
    decode_encode (i := .eoi) rfl _, decode_encode (i := .sos) rfl _, decode_encode (i := .dqt) rfl _,
    decode_encode (i := .dri) rfl _, decode_encode (i := .appn 1) rfl _, decode_encode (i := .com) rfl _,
    decode_encode (i := .other 0xFF) rfl _, rfl, rfl, Laws.OpcodeWord.dqt rfl⟩

/-- Settles O2: the codes of the named operations select them, and every other code is left to OTHER; the 232
codes are counted. -/
theorem codeTableIsTotal : Obligations.CodeTableIsTotal := by
  have hcount : ((List.range 256).filter fun k =>
      decodeCode (BitVec.ofNat 8 k) = .other (BitVec.ofNat 8 k)).length = 232 := by decide +kernel
  refine ⟨rfl, rfl, rfl, rfl, rfl, rfl, rfl, rfl, fun n => ?_, fun c hsingle happ => decodeCode_of_not_named ?_, hcount⟩
  · rw [← Instr.code_appn]
    exact decodeCode_code rfl
  · rw [← Bool.not_eq_true, isNamedCode_iff, shiftRight_eq_app_iff, not_or]
    exact ⟨hsingle, happ⟩

/-! ### The rows of the opcode table -/

theorem markerWord_eq_append (c : Byte) : markerWord c = 0xFF#8 ++ c := by
  refine BitVec.eq_of_toNat_eq ?_
  rw [markerWord, BitVec.toNat_append, ← Nat.shiftLeft_add_eq_or_of_lt c.isLt]
  bv_omega

/-- The start bytes agree, so a row whose mask keeps the start byte tests the code byte alone (R107). -/
theorem markerWord_and_eq_iff (c mask pat : Byte) :
    markerWord c &&& markerWord mask = markerWord pat ↔ c &&& mask = pat := by
  simp only [markerWord_eq_append]
  change (0xFF#8 ++ c) &&& (0xFF#8 ++ mask) = 0xFF#8 ++ pat ↔ c &&& mask = pat
  rw [BitVec.and_append, BitVec.and_self, BitVec.append_right_inj]

/-- A row with the full mask takes the marker of one code (R107). -/
theorem markerWord_and_full (c k : Byte) : markerWord c &&& 0xFFFF = markerWord k ↔ c = k := by
  refine (markerWord_and_eq_iff c 0xFF k).trans ?_
  rw [show (0xFF : Byte) = BitVec.allOnes 8 from rfl, BitVec.and_allOnes]

/-- The APPn row tests the high nibble of the code (R107). -/
theorem markerWord_and_app (c : Byte) : markerWord c &&& 0xFFF0 = 0xFFE0 ↔ c >>> 4 = 0xE := by
  have h : c >>> 4 <<< 4 = c &&& 0xF0 := BitVec.shiftLeft_ushiftRight
  refine (markerWord_and_eq_iff c 0xF0 0xE0).trans ?_
  rw [← h]
  bv_omega

/-- The last row takes every marker (R107). -/
theorem markerWord_and_other (c : Byte) : markerWord c &&& 0xFF00 = 0xFF00 :=
  (markerWord_and_eq_iff c 0 0).2 BitVec.and_zero

/-- What a list of rows builds from a code: its first row that takes the marker (R107). -/
def buildFirst (rows : List MarkerRow) (c : Byte) : Option Instr :=
  (rows.find? fun r => markerWord c &&& r.mask = r.pattern).map fun r => r.build c

theorem buildFirst_of_match {row : MarkerRow} {rows : List MarkerRow} {c : Byte}
    (h : markerWord c &&& row.mask = row.pattern) : buildFirst (row :: rows) c = some (row.build c) := by
  simp only [buildFirst, List.find?_cons, decide_eq_true h, Option.map_some]

theorem buildFirst_of_not_match {row : MarkerRow} {rows : List MarkerRow} {c : Byte}
    (h : ¬markerWord c &&& row.mask = row.pattern) : buildFirst (row :: rows) c = buildFirst rows c := by
  simp only [buildFirst, List.find?_cons, decide_eq_false h]

/-- A row in front of others is one more test in front of theirs. -/
theorem buildFirst_cons {row : MarkerRow} {rows : List MarkerRow} {c : Byte} {p : Prop} [Decidable p] {i : Instr}
    (htest : markerWord c &&& row.mask = row.pattern ↔ p) (hrest : buildFirst rows c = some i) :
    buildFirst (row :: rows) c = some (if p then row.build c else i) := by
  by_cases hp : p
  · rw [buildFirst_of_match (htest.2 hp), if_pos hp]
  · rw [buildFirst_of_not_match (mt htest.1 hp), if_neg hp, hrest]

/-- Row by row, the opcode table tests what the code table tests (R107, R124). -/
theorem buildFirst_markerTable (c : Byte) : buildFirst markerTable c = some (decodeCode c) :=
  have full := markerWord_and_full c
  buildFirst_cons (full 0xC0) <| buildFirst_cons (full 0xC4) <| buildFirst_cons (full 0xD8) <|
    buildFirst_cons (full 0xD9) <| buildFirst_cons (full 0xDA) <| buildFirst_cons (full 0xDB) <|
    buildFirst_cons (full 0xDD) <| buildFirst_cons (markerWord_and_app c) <| buildFirst_cons (full 0xFE) <|
    buildFirst_of_match (markerWord_and_other c)

/-- Settles O3: the row that builds the operation is the one that is selected. -/
theorem tableRowsAgreeWithCodes : Obligations.TableRowsAgreeWithCodes :=
  fun c => Option.map_eq_some_iff.1 (buildFirst_markerTable c)

end Sys2Proof
end

section
/-! PROOFS. The 17 bytes of format F, read field by field (spec/30_encoding.md R95). -/

namespace Sys2Proof.Machine

/-- The segment is read exactly where each of its parts is, at the part's place (R95). -/
theorem State.sofSegment_eq_some {s : State} {o : Nat} {seg : SofSegment} :
    s.sofSegment o = some seg ↔
      s.be16 o = some seg.len ∧ s.u8 (o + 2) = some seg.prec ∧ s.be16 (o + 3) = some seg.height ∧
      s.be16 (o + 5) = some seg.width ∧ s.u8 (o + 7) = some seg.ncomp ∧
      s.component (o + 8) = some seg.c0 ∧ s.component (o + 11) = some seg.c1 ∧
      s.component (o + 14) = some seg.c2 := by
  constructor
  · intro h
    unfold State.sofSegment at h
    split at h
    · split at h
      · cases h
        exact ⟨‹_›, ‹_›, ‹_›, ‹_›, ‹_›, ‹_›, ‹_›, ‹_›⟩
      · cases h
    · cases h
  · rintro ⟨hlen, hprec, hheight, hwidth, hncomp, hc0, hc1, hc2⟩
    simp only [State.sofSegment, hlen, hprec, hheight, hwidth, hncomp, hc0, hc1, hc2]

/-- Settles O13: the parts of the segment, with each component entry taken apart into its three bytes. -/
theorem sofSegmentFollowsFormatF : Obligations.SofSegmentFollowsFormatF := by
  intro s seg
  simp only [State.sofSegment_eq_some, State.component_eq_some, Nat.add_assoc, Nat.reduceAdd, and_assoc]

end Sys2Proof.Machine
end

section
/-! PROOFS. The scan loop (spec/40_scan_loop.md R120 to R123, spec/45_sos_and_finish.md R215): what the marker search
answers, and so which step the parser takes. -/

namespace Sys2Proof.Machine

/-! ### The marker search -/

/-- The search answers the first marker-start byte that has a code byte after it (R122). -/
theorem State.fetch_eq_marker {s : State} {i : Nat} {c : Byte} (hfrom : s.o ≤ i) (hin : i + 1 < s.size.toNat)
    (hbefore : ∀ a, s.o ≤ a → a < i → ∃ b, s.u8 a = some b ∧ b ≠ Config.markerStart)
    (hstart : s.u8 i = some Config.markerStart) (hcode : s.u8 (i + 1) = some c) : s.fetch = .marker i c := by
  obtain ⟨n, hn⟩ : ∃ n, s.o + (s.size.toNat - s.o) - i = n + 1 := ⟨s.size.toNat - i - 1, by omega⟩
  rw [State.fetch, searchFrom_skip hfrom hbefore (by omega), hn]
  simp only [searchFrom, hstart, hcode, if_true, if_neg (Nat.not_le.2 hin)]

/-- The byte at the last address has no code byte after it, so the search finds no marker there (R123). -/
theorem searchFrom_last {s : State} {a : Nat} {b : Byte} (hlast : a + 1 = s.size.toNat) (hb : s.u8 a = some b) :
    searchFrom s 1 a = .exhausted := by
  simp [searchFrom, hb, hlast]

/-- The search is exhausted where no marker-start byte stands below the last address (R123). -/
theorem State.fetch_eq_exhausted {s : State} {b : Byte} (hfrom : s.o < s.size.toNat)
    (hbefore : ∀ a, s.o ≤ a → a + 1 < s.size.toNat → ∃ c, s.u8 a = some c ∧ c ≠ Config.markerStart)
    (hlast : s.u8 (s.size.toNat - 1) = some b) : s.fetch = .exhausted := by
  have hone : s.o + (s.size.toNat - s.o) - (s.size.toNat - 1) = 1 := by omega
  rw [State.fetch, searchFrom_skip (i := s.size.toNat - 1) (by omega) (fun a h1 h2 => hbefore a h1 (by omega))
    (by omega), hone]
  exact searchFrom_last (by omega) hlast

theorem markerStep_of_marker {s : State} {i : Nat} {c : Byte} (h : s.fetch = .marker i c) :
    markerStep s = exec (decodeCode c) (s.setOffset (i + 2)) := by
  simp only [markerStep, h]

theorem markerStep_of_exhausted {s : State} (h : s.fetch = .exhausted) :
    markerStep s = .next { s with offset := s.size } := by
  simp only [markerStep, h, State.setOffset_toNat_size]

/-! ### The step -/

/-- Settles O7: the search answers the marker at `i`, whose code byte selects what the two bytes decode to. -/
theorem stepRunsDecodedMarker : Obligations.StepRunsDecodedMarker := by
  intro s i c ins hb hsos hfrom hin hbefore hstart hcode hdecode
  have hfetch : s.fetch = .marker i c := State.fetch_eq_marker hfrom hin hbefore hstart hcode
  have hins : decodeCode c = ins := by
    rw [show [0xFF, c] = [Config.markerStart, c] from rfl, decode_markerStart] at hdecode
    cases hdecode
    rfl
  have hfits : i + 2 < 2 ^ 32 := by
    have := s.size.isLt
    omega
  refine ⟨BitVec.ofNat 32 (i + 2), toNat_ofNat_word hfits, ?_⟩
  rw [step_of_scanning hb (s.scanning_iff.2 ⟨hsos, by omega⟩), markerStep_of_marker hfetch, hins]
  rfl

/-- Settles O8: the search is exhausted, and a marker step without a marker writes `offset` only. -/
theorem searchExhaustionEndsTheScan : Obligations.SearchExhaustionEndsTheScan := by
  intro s b hb hsos hfrom hbefore hlast
  rw [step_of_scanning hb (s.scanning_iff.2 ⟨hsos, hfrom⟩)]
  exact markerStep_of_exhausted (State.fetch_eq_exhausted hfrom hbefore hlast)

theorem parserRun_of_not_busy {s : State} (h : s.state ≠ .busy) (k : Nat) : parserRun k s = .next s := by
  induction k with
  | zero => rfl
  | succ k ih => rw [parserRun, step_of_not_busy h, andThen_next, ih]

/-- Settles O9: a step outside BUSY leaves the state, and so any number of steps does. -/
theorem parserIdleOutsideBusy : Obligations.ParserIdleOutsideBusy :=
  fun _ k h => ⟨step_of_not_busy h, parserRun_of_not_busy h k⟩

/-! ### The finish step -/

theorem finishStep_of_no_sof {s : State} (h : s.sofFound = false) : finishStep s = s.raiseFail .noSof := if_pos h

theorem finishStep_of_no_dqt {s : State} (hsof : s.sofFound = true) (hdqt : s.dqtFound = false) :
    finishStep s = s.raiseFail .noDqt := by
  rw [finishStep, if_neg (by simp [hsof]), if_pos hdqt]

theorem finishStep_of_zero_blocks {s : State} (hsof : s.sofFound = true) (hdqt : s.dqtFound = true)
    (hzero : s.widthBlocks = 0 ∨ s.heightBlocks = 0) : finishStep s = s.raiseFail .zeroBlocks := by
  rw [finishStep, if_neg (by simp [hsof]), if_neg (by simp [hdqt]), if_pos hzero]

/-- The loop has ended where SOS completed or the buffer is used up (R121). -/
theorem State.scanning_eq_false {s : State} (h : s.sosFound = true ∨ s.size.toNat ≤ s.o) : s.scanning = false := by
  rw [← Bool.not_eq_true, s.scanning_iff]
  rintro ⟨hsos, hlt⟩
  obtain hfound | hend := h
  · simp [hsos] at hfound
  · omega

/-- Settles O27: the loop has ended, so the step is the finish step, and each test that fails raises its cause. -/
theorem finishStepFailsInOrder : Obligations.FinishStepFailsInOrder := by
  intro s hb hended
  rw [step_of_loop_ended hb (State.scanning_eq_false hended)]
  exact ⟨fun hsof => congrArg _ (finishStep_of_no_sof hsof),
    fun hsof hdqt => congrArg _ (finishStep_of_no_dqt hsof hdqt),
    fun hsof hdqt hzero => congrArg _ (finishStep_of_zero_blocks hsof hdqt hzero)⟩

end Sys2Proof.Machine
end

section
/-! PROOFS. A parse always ends (spec/40_scan_loop.md R125): every marker step passes two bytes or goes to the end of the
buffer, and the finish step ends the parse. -/

namespace Sys2Proof.Machine

/-! ### Where a parse ends -/

/-- A state in which a parse has ended (R21). -/
def State.Ended (s : State) : Prop := s.state = .ok ∨ s.state = .fail ∨ s.state = .fault

theorem State.Ended.ne_busy {s : State} (h : s.Ended) : s.state ≠ .busy := by
  obtain h | h | h := h <;> simp [h]

theorem State.ended_of_ne {s : State} (hidle : s.state ≠ .idle) (hbusy : s.state ≠ .busy) : s.Ended := by
  unfold State.Ended
  cases hs : s.state <;> simp_all

/-- In IDLE the offset is the cleared one (R48). -/
theorem State.Inv.o_of_idle {s : State} (h : s.Inv) (hidle : s.state = .idle) : s.o = 0 := by
  rw [h.idleClear hidle]
  exact s.clearResults_o

theorem finishStep_ended (s : State) : (finishStep s).Ended := by
  unfold finishStep
  split
  · exact .inr (.inl rfl)
  split
  · exact .inr (.inl rfl)
  split
  · exact .inr (.inl rfl)
  · exact .inl rfl

/-- A marker step goes on with the parse or ends it: it leaves `offset` above 0, where no IDLE state has it. -/
theorem markerStep_busy_or_ended {s t : State} (h : s.Inv) (hb : s.state = .busy) (hs : s.scanning = true)
    (hstep : markerStep s = .next t) : t.state = .busy ∨ t.Ended := by
  obtain ⟨-, hlt⟩ := s.scanning_iff.1 hs
  have ht : t.Inv := (markerStep_goesOn h hb hs).inv_of_eq_next hstep
  have hprogress := markerStep_progress h hb hstep
  have hidle : t.state ≠ .idle := fun hi => by
    have := ht.o_of_idle hi
    omega
  exact (em (t.state = .busy)).imp_right (State.ended_of_ne hidle)

/-! ### The bound -/

theorem parserRun_succ {s t : State} (h : step s = .next t) (k : Nat) : parserRun (k + 1) s = parserRun k t := by
  rw [parserRun, h, andThen_next]

/-- Where the loop has ended, the finish step is the last that changes the state. -/
theorem parserRun_of_loop_ended {s : State} (hb : s.state = .busy) (hs : s.scanning = false) (k : Nat) :
    parserRun (k + 1) s = .next (finishStep s) := by
  rw [parserRun_succ (step_of_loop_ended hb hs), parserRun_of_not_busy (finishStep_ended s).ne_busy]

/-- A parse in progress ends within `k` marker steps and the finish step, where two bytes for each marker step cover what
remains of the buffer (R125). -/
theorem parserRun_ends {k : Nat} {s : State} (h : s.Inv) (hb : s.state = .busy) (hk : s.size.toNat ≤ s.o + 2 * k) :
    ∃ t, parserRun (k + 1) s = .next t ∧ t.Ended := by
  induction k generalizing s with
  | zero => exact ⟨_, parserRun_of_loop_ended hb (State.scanning_eq_false (.inr hk)) 0, finishStep_ended s⟩
  | succ k ih =>
    cases hs : s.scanning with
    | false => exact ⟨_, parserRun_of_loop_ended hb hs (k + 1), finishStep_ended s⟩
    | true =>
      obtain ⟨t, hmarker, ht⟩ := markerStep_goesOn h hb hs
      have hstep : step s = .next t := (step_of_scanning hb hs).trans hmarker
      rw [parserRun_succ hstep]
      obtain hbusy | hended := markerStep_busy_or_ended h hb hs hmarker
      · obtain ⟨-, hsize, -⟩ := parserNeverWritesHostState s t hstep
        have hprogress := markerStep_progress h hb hmarker
        exact ih ht hbusy (by rw [hsize]; omega)
      · exact ⟨t, parserRun_of_not_busy hended.ne_busy _, hended⟩

/-! ### START -/

/-- The state that START gives: cleared results, and a parse in progress (R235). -/
def State.started (s : State) : State := { s.clearResults with state := .busy }

theorem hostStart_of_not_busy {s : State} (h : s.state ≠ .busy) : hostStart s = some (s.started, .nothing) := if_pos h

theorem State.Inv.started {s : State} (h : s.Inv) : s.started.Inv :=
  State.clearResults_inv h.contFull h.sizeOk (.inr rfl)

/-- Settles O40: START begins a parse at offset 0, where `size / 2 + 1` marker steps cover the buffer. -/
theorem everyParseEnds : Obligations.EveryParseEnds := by
  intro cap s h hb
  have hcover : s.started.size.toNat ≤ s.started.o + 2 * (s.size.toNat / 2 + 1) := by
    change s.size.toNat ≤ 0 + 2 * (s.size.toNat / 2 + 1)
    omega
  obtain ⟨t, hrun, hended⟩ := parserRun_ends h.started rfl hcover
  exact ⟨s.started, t, hostStart_of_not_busy hb, rfl, (core_run _ _).trans hrun, hended⟩

end Sys2Proof.Machine
end

section
/-! PROOFS. A parse is a function of the Container and its size (spec/40_scan_loop.md R126): START clears every other
result (R48), and no step of the parser reads `qfactor` (R40). -/

namespace Sys2Proof.Machine

/-! ### Another quality factor -/

/-- The state with another quality factor. -/
def State.withQfactor (s : State) (q : Byte) : State := { s with qfactor := q }

/-- A result with another quality factor in the next state; a stop stays a stop. -/
def nextWithQfactor (q : Byte) (r : Result) : Result := andThen r fun t => .next (t.withQfactor q)

@[simp] theorem State.withQfactor_o (s : State) (q : Byte) : (s.withQfactor q).o = s.o := rfl
@[simp] theorem State.withQfactor_u8 (s : State) (q : Byte) : (s.withQfactor q).u8 = s.u8 := rfl
@[simp] theorem State.withQfactor_be16 (s : State) (q : Byte) : (s.withQfactor q).be16 = s.be16 := rfl
@[simp] theorem State.withQfactor_sofSegment (s : State) (q : Byte) : (s.withQfactor q).sofSegment = s.sofSegment := rfl

@[simp] theorem nextWithQfactor_next (q : Byte) (s : State) :
    nextWithQfactor q (.next s) = .next (s.withQfactor q) := rfl

/-! ### One rule per shared operation -/

section
variable {q : Byte}

theorem ite_withQfactor {p : Prop} [Decidable p] {a b a' b' : Result} (ha : a' = nextWithQfactor q a)
    (hb : b' = nextWithQfactor q b) : (if p then a' else b') = nextWithQfactor q (if p then a else b) := by
  split
  · exact ha
  · exact hb

theorem andThen_withQfactor {r r' : Result} {k k' : State → Result} (hr : r' = nextWithQfactor q r)
    (hk : ∀ t, k' (t.withQfactor q) = nextWithQfactor q (k t)) : andThen r' k' = nextWithQfactor q (andThen r k) := by
  subst hr
  cases r with
  | next t => exact hk t
  | fault f => rfl
  | refused f => rfl

theorem withU8_withQfactor {s : State} {a : Nat} {k k' : Byte → Result} (hk : ∀ b, k' b = nextWithQfactor q (k b)) :
    withU8 (s.withQfactor q) a k' = nextWithQfactor q (withU8 s a k) := by
  simp only [withU8, State.withQfactor_u8]
  cases s.u8 a with
  | none => rfl
  | some b => exact hk b

theorem withBE16_withQfactor {s : State} {a : Nat} {k k' : Half → Result} (hk : ∀ v, k' v = nextWithQfactor q (k v)) :
    withBE16 (s.withQfactor q) a k' = nextWithQfactor q (withBE16 s a k) := by
  simp only [withBE16, State.withQfactor_be16]
  cases s.be16 a with
  | none => rfl
  | some v => exact hk v

theorem copyToQt_withQfactor (n : Nat) (s : State) (dst src : Nat) :
    copyToQt n (s.withQfactor q) dst src = nextWithQfactor q (copyToQt n s dst src) := by
  induction n generalizing s dst src with
  | zero => rfl
  | succ n ih =>
    exact withU8_withQfactor fun b => andThen_withQfactor (ite_withQfactor rfl rfl) fun t => ih t _ _

end

/-! ### The operations -/

section
variable (q : Byte) (s : State)

theorem skip_withQfactor : skip (s.withQfactor q) = nextWithQfactor q (skip s) :=
  ite_withQfactor rfl (withBE16_withQfactor fun _ => rfl)

theorem sofCommit_withQfactor (len : Nat) (i1 i2 : Component) :
    sofCommit (s.withQfactor q) len i1 i2 = (sofCommit s len i1 i2).withQfactor q := by
  unfold sofCommit
  split
  · rfl
  split <;> rfl

theorem sofComponents_withQfactor (floor : Nat) (seg : SofSegment) :
    sofComponents floor (s.withQfactor q) seg = (sofComponents floor s seg).withQfactor q := by
  obtain ⟨i0, i1, i2, hpass⟩ := List.length_eq_three.1 (insertionPass_length floor seg.c0 seg.c1 seg.c2)
  rw [sofComponents_of_pass hpass, sofComponents_of_pass hpass]
  cases samplingType i0.samp with
  | none => rfl
  | some t => exact sofCommit_withQfactor q (s.setType t) seg.len.toNat i1 i2

theorem sofChecks_withQfactor (floor : Nat) (seg : SofSegment) :
    sofChecks floor (s.withQfactor q) seg = (sofChecks floor s seg).withQfactor q := by
  unfold sofChecks
  split
  · rfl
  split
  · rfl
  split
  · rfl
  dsimp only
  split
  · rfl
  · exact sofComponents_withQfactor q (s.setBlocks (blocks seg.width) (blocks seg.height)) floor seg

theorem execSof0_withQfactor : execSof0 (s.withQfactor q) = nextWithQfactor q (execSof0 s) := by
  refine ite_withQfactor rfl (ite_withQfactor rfl ?_)
  simp only [State.withQfactor_sofSegment, State.withQfactor_o]
  cases s.sofSegment s.o with
  | none => rfl
  | some seg => exact congrArg _ (sofChecks_withQfactor q s Config.shiftFloor seg)

theorem dqtTables_withQfactor (fuel p rem : Nat) :
    dqtTables fuel (s.withQfactor q) p rem = nextWithQfactor q (dqtTables fuel s p rem) := by
  induction fuel generalizing s p rem with
  | zero => rfl
  | succ fuel ih =>
    refine ite_withQfactor rfl (withU8_withQfactor fun b => ite_withQfactor rfl (ite_withQfactor rfl ?_))
    exact andThen_withQfactor (copyToQt_withQfactor _ s _ _) fun t => ih (t.setPrecision (precisionFlag b)) _ _

theorem execDqt_withQfactor : execDqt (s.withQfactor q) = nextWithQfactor q (execDqt s) :=
  ite_withQfactor rfl (withBE16_withQfactor fun _ => ite_withQfactor rfl
    (andThen_withQfactor (dqtTables_withQfactor q s.setDqtFound _ _ _) fun _ => rfl))

theorem execDri_withQfactor : execDri (s.withQfactor q) = nextWithQfactor q (execDri s) :=
  ite_withQfactor rfl (withBE16_withQfactor fun _ => ite_withQfactor rfl (withBE16_withQfactor fun _ => rfl))

theorem execSos_withQfactor : execSos (s.withQfactor q) = nextWithQfactor q (execSos s) :=
  ite_withQfactor rfl (withBE16_withQfactor fun _ => ite_withQfactor rfl rfl)

/-- No operation reads the quality factor (R40). -/
theorem exec_withQfactor (i : Instr) : exec i (s.withQfactor q) = nextWithQfactor q (exec i s) := by
  cases i with
  | sof0 => exact execSof0_withQfactor q s
  | dht => exact skip_withQfactor q s
  | soi => rfl
  | eoi => rfl
  | sos => exact execSos_withQfactor q s
  | dqt => exact execDqt_withQfactor q s
  | dri => exact execDri_withQfactor q s
  | appn n => exact skip_withQfactor q s
  | com => exact skip_withQfactor q s
  | other code => rfl

/-! ### The step and the parse -/

theorem searchFrom_withQfactor (n a : Nat) : searchFrom (s.withQfactor q) n a = searchFrom s n a := by
  induction n generalizing a with
  | zero => rfl
  | succ n ih =>
    rw [searchFrom, searchFrom, ih]
    rfl

theorem markerStep_withQfactor : markerStep (s.withQfactor q) = nextWithQfactor q (markerStep s) := by
  have hfetch : (s.withQfactor q).fetch = s.fetch := searchFrom_withQfactor q s _ _
  simp only [markerStep, hfetch]
  cases s.fetch with
  | marker i code => exact exec_withQfactor q (s.setOffset (i + 2)) (decodeCode code)
  | exhausted => rfl
  | unreadable => rfl

theorem finishStep_withQfactor : finishStep (s.withQfactor q) = (finishStep s).withQfactor q := by
  simp only [finishStep, apply_ite (fun t : State => t.withQfactor q)]
  rfl

theorem step_withQfactor : step (s.withQfactor q) = nextWithQfactor q (step s) := by
  by_cases hb : s.state = .busy
  · cases hs : s.scanning with
    | true =>
      rw [step_of_scanning hb hs, step_of_scanning (s := s.withQfactor q) hb hs]
      exact markerStep_withQfactor q s
    | false =>
      rw [step_of_loop_ended hb hs, step_of_loop_ended (s := s.withQfactor q) hb hs]
      exact congrArg _ (finishStep_withQfactor q s)
  · rw [step_of_not_busy hb, step_of_not_busy (s := s.withQfactor q) hb]
    rfl

/-- No run of the parser reads the quality factor (R40). -/
theorem parserRun_withQfactor (k : Nat) : parserRun k (s.withQfactor q) = nextWithQfactor q (parserRun k s) := by
  induction k generalizing s with
  | zero => rfl
  | succ k ih => exact andThen_withQfactor (step_withQfactor q s) ih

end

/-- No run of the parser writes the host's state (R23, R40, R45, R275). -/
theorem parserRun_hostState {k : Nat} {s t : State} (h : parserRun k s = .next t) :
    t.cont = s.cont ∧ t.size = s.size ∧ t.qfactor = s.qfactor := by
  induction k generalizing s with
  | zero =>
    cases h
    exact ⟨rfl, rfl, rfl⟩
  | succ k ih =>
    obtain ⟨u, hstep, hrun⟩ := andThen_eq_next.1 h
    obtain ⟨hcont, hsize, hqfactor⟩ := parserNeverWritesHostState s u hstep
    obtain ⟨hcont', hsize', hqfactor'⟩ := ih hrun
    exact ⟨hcont'.trans hcont, hsize'.trans hsize, hqfactor'.trans hqfactor⟩

theorem parseAll_of_not_busy {s : State} (h : s.state ≠ .busy) : parseAll s = parserRun s.parseBound s.started := by
  rw [parseAll, hostStart_of_not_busy h]
  rfl

/-- START leaves nothing of a state but the Container, its size and the quality factor (R48, R235). -/
theorem State.started_congr {s s' : State} (hcont : s.cont = s'.cont) (hsize : s.size = s'.size) :
    s'.started = s.started.withQfactor s'.qfactor := by
  simp only [State.started, State.clearResults, State.withQfactor, hcont, hsize]

/-- Settles O41: after START the two states differ in the quality factor only, which no step reads or writes. -/
theorem parseIsFunctionOfContainer : Obligations.ParseIsFunctionOfContainer := by
  intro s s' t hb hb' hcont hsize hparse
  have hbound : s'.parseBound = s.parseBound := by rw [State.parseBound, State.parseBound, hsize]
  rw [parseAll_of_not_busy hb] at hparse
  obtain ⟨-, -, hqfactor⟩ := parserRun_hostState hparse
  refine ⟨hqfactor, ?_⟩
  rw [parseAll_of_not_busy hb', State.started_congr hcont hsize, hbound, parserRun_withQfactor, hparse]
  rfl

end Sys2Proof.Machine
end

section
/-! PROOFS. What a host can observe of a parse in progress (spec/46_host_commands.md R230 to R242): `size`, the quality
factor and that the parse runs. -/

namespace Sys2Proof.Machine

/-- The commands that are accepted while BUSY: RESET and the reads of STATUS, `size` and `qfactor` (R233, R237, R238). -/
def HostCmd.answeredWhileBusy (c : HostCmd) : Prop := c = .reset ∨ c = .rdStatus ∨ c = .rdSize ∨ c = .rdQfactor

theorem readResult_of_busy {s : State} (hb : s.state = .busy) (r : Reply) : readResult s r = none :=
  if_neg (State.ne_ok_of_busy hb)

/-- Every other command is refused while BUSY (R230, R232). -/
theorem hostCommand_of_busy {cap : Nat} {c : HostCmd} {s : State} (hb : s.state = .busy)
    (hc : ¬c.answeredWhileBusy) : hostCommand cap c s = none := by
  have hok := State.ne_ok_of_busy hb
  cases c with
  | reset => exact absurd (.inl rfl) hc
  | rdStatus => exact absurd (.inr (.inl rfl)) hc
  | rdSize => exact absurd (.inr (.inr (.inl rfl))) hc
  | rdQfactor => exact absurd (.inr (.inr (.inr rfl))) hc
  | load bytes => exact if_neg fun h => h.1 hb
  | start => exact if_neg fun h => h hb
  | setq v => exact if_neg fun h => h hb
  | rdOffset => exact if_neg (by simp [hb])
  | rdQt i => exact if_neg fun h => hok h.1
  | rdScan k => exact if_neg fun h => hok h.1
  | _ => exact readResult_of_busy hb _

/-- No accepted command but RESET changes a BUSY state (R232). -/
theorem hostApply_of_busy (cap : Nat) {c : HostCmd} {s : State} (hb : s.state = .busy) (hc : c ≠ .reset) :
    hostApply cap c s = s := by
  unfold hostApply
  split
  case h_1 t r h =>
    obtain ⟨hreset, -⟩ | ⟨_, -, hn, -⟩ | ⟨-, hn, -⟩ | ⟨_, -, hn, -⟩ | ⟨-, -, -, -, ht⟩ := hostCommand_eq_some h
    · exact absurd hreset hc
    · exact absurd hb hn
    · exact absurd hb hn
    · exact absurd hb hn
    · exact ht
  case h_2 => rfl

theorem hostReply_of_busy (cap : Nat) (c : HostCmd) {s s' : State} (hb : s.state = .busy) (hb' : s'.state = .busy)
    (hsize : s.size = s'.size) (hq : s.qfactor = s'.qfactor) : hostReply cap c s = hostReply cap c s' := by
  by_cases hc : c.answeredWhileBusy
  · obtain rfl | rfl | rfl | rfl := hc
    · rfl
    · exact congrArg (some ∘ Reply.bits16) ((State.statusWord_of_busy hb).trans (State.statusWord_of_busy hb').symm)
    · exact congrArg (some ∘ Reply.bits32) hsize
    · exact congrArg (some ∘ Reply.bits8) hq
  · rw [hostReply, hostReply, hostCommand_of_busy hb hc, hostCommand_of_busy hb' hc]

/-- Settles O56: a BUSY state answers from `size` and `qfactor` alone, and only RESET is accepted with an effect. -/
theorem busyHidesTheParse : Obligations.BusyHidesTheParse :=
  fun cap c _ _ hb hb' hsize hq => ⟨hostReply_of_busy cap c hb hb' hsize hq, hostApply_of_busy cap hb⟩

end Sys2Proof.Machine
end

section
/-! PROOFS. The skipped markers COM, DHT and APPn and the markers without a segment SOI, EOI and OTHER
(spec/41_skip_and_noop_markers.md R141 to R147): one equation per operation, one per branch of `Skip`. -/

namespace Sys2Proof.Machine

/-! ### The markers without a segment -/

@[simp] theorem exec_soi (s : State) : exec .soi s = .next s := rfl
@[simp] theorem exec_eoi (s : State) : exec .eoi s = .next s.setEoiSeen := rfl
@[simp] theorem exec_other (c : Byte) (s : State) : exec (.other c) s = .next s := rfl

/-- Settles O10: neither SOI nor OTHER has an effect, whatever the code of OTHER (R145, R147). -/
theorem soiAndOtherChangeNothing : Obligations.SoiAndOtherChangeNothing :=
  fun s => ⟨exec_soi s, fun c => exec_other c s⟩

/-- Settles O11: EOI is the write of its flag (R30, R146). -/
theorem eoiSetsEoiSeen : Obligations.EoiSetsEoiSeen := exec_eoi

/-! ### The skipped markers -/

/-- The markers whose segment is passed over by `Skip` (R142 to R144). -/
def IsSkipped (i : Instr) : Prop := i = .com ∨ i = .dht ∨ ∃ n, i = .appn n

/-- They share one operation; the number of an APPn has no effect (R143). -/
theorem exec_eq_skip {i : Instr} (h : IsSkipped i) (s : State) : exec i s = skip s := by
  obtain rfl | rfl | ⟨n, rfl⟩ := h
  · rfl
  · rfl
  · rfl

theorem skip_of_cut {s : State} (hcut : s.size.toNat < s.o + 2) : skip s = .next { s with offset := s.size } :=
  (if_pos hcut).trans (congrArg _ s.setOffset_toNat_size)

theorem skip_of_length {s : State} {len : Half} (hin : s.o + 2 ≤ s.size.toNat) (hlen : s.be16 s.o = some len) :
    skip s = .next (s.setOffset (s.o + len.toNat)) :=
  (if_neg (Nat.not_lt.2 hin)).trans (withBE16_of_some hlen _)

/-- No sum of an address inside the buffer and a 16-bit length wraps (R15). -/
theorem State.SizeOk.add_len_lt {s : State} (h : s.SizeOk) {a : Nat} (ha : a ≤ s.size.toNat) (len : Half) :
    a + len.toNat < 2 ^ 32 := by
  have hsize : s.size.toNat ≤ 0xFFFF0000 := h
  have hlen := len.isLt
  omega

/-- Settles O12, by the two branches of `Skip`: the sum of the second one fits the register, so the write is literal. -/
theorem skippedMarkersAdvanceByLength : Obligations.SkippedMarkersAdvanceByLength := by
  intro i s hi hsize
  rw [exec_eq_skip hi]
  refine ⟨skip_of_cut, fun len hin hlen => ?_⟩
  have hfits : s.o + len.toNat < 2 ^ 32 := hsize.add_len_lt (Nat.le_of_add_right_le hin) len
  exact ⟨BitVec.ofNat 32 (s.o + len.toNat), toNat_ofNat_word hfits, skip_of_length hin hlen⟩

end Sys2Proof.Machine
end

section
/-! PROOFS. The insertion pass of SOF0 (spec/42_sof.md R167): which entries a search passes over and which it stops at,
and so the order of the three entries with either floor. -/

namespace Sys2Proof.Machine

/-! ### The place that is found -/

theorem insertPos_le (floor : Nat) (info : List Component) (id : Byte) (j : Nat) : insertPos floor info id j ≤ j := by
  induction j with
  | zero => exact le_rfl
  | succ j ih =>
    unfold insertPos
    split
    · split
      · split
        · exact le_rfl
        · exact Nat.le_succ_of_le ih
      · exact le_rfl
    · exact le_rfl

/-- The entries that the search passes over have no smaller id, whatever the floor. -/
theorem le_id_of_insertPos_le {floor : Nat} {info : List Component} {id : Byte} {i j : Nat} {e : Component}
    (hpos : insertPos floor info id j ≤ i) (hij : i < j) (he : info[i]? = some e) : id ≤ e.id := by
  induction j with
  | zero => omega
  | succ j ih =>
    unfold insertPos at hpos
    split at hpos
    · split at hpos
      · rename_i e' he'
        split at hpos
        · omega
        · by_cases hi : i = j
          · subst hi
            obtain rfl : e' = e := Option.some.inj (he'.symm.trans he)
            exact BitVec.not_lt.1 ‹_›
          · exact ih hpos (by omega)
      · omega
    · omega

/-- With floor 0 only an entry with a smaller id stops the search. -/
theorem id_lt_of_insertPos_zero {info : List Component} {id : Byte} {i j : Nat} {e : Component}
    (hpos : insertPos 0 info id j = i + 1) (he : info[i]? = some e) : e.id < id := by
  induction j with
  | zero => cases hpos
  | succ j ih =>
    rw [insertPos, if_pos j.succ_pos] at hpos
    split at hpos
    · rename_i e' he'
      split at hpos
      · obtain rfl : j = i := Nat.succ.inj hpos
        obtain rfl : e' = e := Option.some.inj (he'.symm.trans he)
        assumption
      · exact ih hpos
    · rename_i hnone
      obtain rfl : j = i := Nat.succ.inj hpos
      cases hnone.symm.trans he

/-! ### One round -/

/-- A round of the pass inserts its element somewhere, whatever the floor. -/
theorem insertComponent_perm (floor : Nat) (info : List Component) (elem : Component) :
    (insertComponent floor info elem).Perm (elem :: info) := by
  unfold insertComponent
  exact List.perm_middle.trans (by rw [List.take_append_drop])

/-- The order that the pass with floor 0 produces. -/
def SortedById (info : List Component) : Prop := info.Pairwise fun x y => x.id ≤ y.id

/-- In a sorted list every entry before the found place has a smaller id: it is at most the entry that stopped the
search. -/
theorem SortedById.id_lt_of_mem_take {info : List Component} (h : SortedById info) {id : Byte} {x : Component}
    (hx : x ∈ info.take (insertPos 0 info id info.length)) : x.id < id := by
  have hle := insertPos_le 0 info id info.length
  obtain ⟨k, hk, rfl⟩ := List.mem_take_iff_getElem.1 hx
  obtain ⟨p, hpos⟩ := Nat.exists_eq_succ_of_ne_zero (n := insertPos 0 info id info.length) (by omega)
  have hp : p < info.length := by omega
  have hlast : info[p].id < id := id_lt_of_insertPos_zero hpos (List.getElem?_eq_getElem hp)
  obtain rfl | hkp : k = p ∨ k < p := by omega
  · exact hlast
  · have hle : info[k].id ≤ info[p].id := List.pairwise_iff_getElem.1 h k p _ hp hkp
    exact Nat.lt_of_le_of_lt hle hlast

theorem le_id_of_mem_drop {floor : Nat} {info : List Component} {id : Byte} {x : Component}
    (hx : x ∈ info.drop (insertPos floor info id info.length)) : id ≤ x.id := by
  obtain ⟨k, hk, rfl⟩ := List.mem_drop_iff_getElem.1 hx
  exact le_id_of_insertPos_le (Nat.le_add_right _ k) (by omega) (List.getElem?_eq_getElem (by omega))

/-- A round of the pass with floor 0 keeps the scratch sorted. -/
theorem SortedById.insertComponent {info : List Component} (h : SortedById info) (elem : Component) :
    SortedById (insertComponent 0 info elem) := by
  have habove : SortedById (elem :: info.drop (insertPos 0 info elem.id info.length)) :=
    List.pairwise_cons.2 ⟨fun _ => le_id_of_mem_drop, h.drop⟩
  refine List.pairwise_append.2 ⟨h.take, habove, fun x hx y hy => ?_⟩
  have hbelow : x.id < elem.id := h.id_lt_of_mem_take hx
  obtain rfl | hy := List.mem_cons.1 hy
  · exact BitVec.le_of_lt hbelow
  · exact BitVec.le_trans (BitVec.le_of_lt hbelow) (le_id_of_mem_drop hy)

/-! ### The three rounds -/

theorem insertionPass_perm (floor : Nat) (c0 c1 c2 : Component) :
    (insertionPass floor c0 c1 c2).Perm [c0, c1, c2] := by
  have h0 : (insertComponent floor [] c0).Perm [c0] := insertComponent_perm floor [] c0
  have h1 : (insertComponent floor (insertComponent floor [] c0) c1).Perm [c1, c0] :=
    (insertComponent_perm floor _ c1).trans (h0.cons c1)
  have h2 : (insertionPass floor c0 c1 c2).Perm [c2, c1, c0] := (insertComponent_perm floor _ c2).trans (h1.cons c2)
  exact h2.trans (List.reverse_perm [c0, c1, c2])

theorem insertionPass_zero_sorted (c0 c1 c2 : Component) : SortedById (insertionPass 0 c0 c1 c2) :=
  have hnil : SortedById [] := .nil
  ((hnil.insertComponent c0).insertComponent c1).insertComponent c2

/-- With floor 1 the first entry is never moved, and only the last round compares two ids. -/
theorem insertionPass_one (c0 c1 c2 : Component) :
    insertionPass 1 c0 c1 c2 = if c1.id < c2.id then [c0, c1, c2] else [c0, c2, c1] := by
  have hround : insertionPass 1 c0 c1 c2 = insertComponent 1 [c0, c1] c2 := rfl
  have hpos : insertPos 1 [c0, c1] c2.id 2 = if c1.id < c2.id then 2 else 1 := rfl
  rw [hround, insertComponent]
  dsimp only [List.length_cons, List.length_nil]
  rw [hpos]
  split <;> rfl

/-- Settles O17: floor 1 by its one comparison; floor 0 because each round inserts and keeps the order. -/
theorem insertionPassOrder : Obligations.InsertionPassOrder :=
  fun c0 c1 c2 => ⟨insertionPass_one c0 c1 c2, insertionPass_perm 0 c0 c1 c2, insertionPass_zero_sorted c0 c1 c2⟩

end Sys2Proof.Machine
end

section
/-! PROOFS. The Start-Of-Frame operation SOF0 (spec/42_sof.md R160 to R171): its checks against the list of them, what it
has written where one fails, and the state it leaves where none does. -/

namespace Sys2Proof.Machine

/-! ### Before the checks -/

theorem exec_sof0_of_found {s : State} (h : s.sofFound = true) : exec .sof0 s = .next (s.raiseFault .sofRepeated) :=
  if_pos h

theorem exec_sof0_of_cut {s : State} (hfirst : s.sofFound = false) (hcut : s.size.toNat < s.o + 17) :
    exec .sof0 s = .next (s.raiseFail .sofShortBuffer) :=
  (if_neg (ne_true_of_eq_false hfirst)).trans (if_pos hcut)

/-- Settles O14: the two checks that come before anything is read. -/
theorem sof0RepeatedOrCut : Obligations.Sof0RepeatedOrCut :=
  fun _ => ⟨exec_sof0_of_found, exec_sof0_of_cut⟩

/-- A segment that is read lies inside the buffer: its last byte does. -/
theorem State.sofSegment_inBuffer {s : State} {o : Nat} {seg : SofSegment} (h : s.sofSegment o = some seg) :
    o + 17 ≤ s.size.toNat := by
  obtain ⟨-, -, -, -, -, -, -, hc2⟩ := State.sofSegment_eq_some.1 h
  obtain ⟨-, -, hlast⟩ := State.component_eq_some.1 hc2
  have := State.lt_size_of_u8 hlast
  omega

/-- A first SOF0 whose segment can be read makes the checks of R163 to R168 on it. -/
theorem exec_sof0_of_segment {s : State} {seg : SofSegment} (hfirst : s.sofFound = false)
    (hseg : s.sofSegment s.o = some seg) : exec .sof0 s = .next (sofChecks Config.shiftFloor s seg) := by
  have hroom : ¬ s.size.toNat < s.o + Config.sofMin := Nat.not_lt.2 (State.sofSegment_inBuffer hseg)
  change sof0 Config.shiftFloor s = _
  simp only [sof0, hfirst, Bool.false_eq_true, if_false, if_neg hroom, hseg]

/-! ### The checks -/

/-- The type that the first component's sampling byte selects where it is one of the two legal ones (R168). -/
def typeOfSampling (samp : Byte) : Byte := if samp = 0x21 then 0 else 1

theorem samplingType_eq_ite (samp : Byte) :
    samplingType samp = if samp ≠ 0x21 ∧ samp ≠ 0x22 then none else some (typeOfSampling samp) := by
  by_cases h1 : samp = 0x21
  · subst h1
    rfl
  · by_cases h2 : samp = 0x22
    · subst h2
      rfl
    · rw [if_pos ⟨h1, h2⟩]
      exact (if_neg h1).trans (if_neg h2)

/-- With `SHIFT_FLOOR` the entry first in the file is the first component, and the other two are the other components in
one of their orders (R167). -/
theorem insertionPass_shiftFloor (c0 c1 c2 : Component) :
    insertionPass Config.shiftFloor c0 c1 c2 = [c0, c1, c2] ∨
      insertionPass Config.shiftFloor c0 c1 c2 = [c0, c2, c1] := by
  rw [Config.shiftFloor, insertionPass_one]
  exact ite_eq_or_eq _ _ _

/-- Steps 7 and 8 with `SHIFT_FLOOR` are on the entries in file order, because the order of the last two does not matter
(R168, R171). -/
theorem sofComponents_shiftFloor (s : State) (seg : SofSegment) :
    sofComponents Config.shiftFloor s seg =
      if seg.c0.samp ≠ 0x21 ∧ seg.c0.samp ≠ 0x22 then s.raiseFail .sofSamplingFirst
      else sofCommit (s.setType (typeOfSampling seg.c0.samp)) seg.len.toNat seg.c1 seg.c2 := by
  have htype := samplingType_eq_ite seg.c0.samp
  split
  next h =>
    rw [if_pos h] at htype
    obtain hpass | hpass := insertionPass_shiftFloor seg.c0 seg.c1 seg.c2 <;>
      rw [sofComponents_of_pass hpass, htype]
  next h =>
    rw [if_neg h] at htype
    obtain hpass | hpass := insertionPass_shiftFloor seg.c0 seg.c1 seg.c2
    · rw [sofComponents_of_pass hpass, htype]
    · rw [sofComponents_of_pass hpass, htype]
      exact sofCommit_comm _ _ _ _

/-- One check of the list: its cause is reported where it fails, else the rest of the list decides. -/
theorem find_check_cons (c : Cause) (p : Prop) [Decidable p] (checks : List (Cause × Bool)) :
    (((c, decide p) :: checks).find? fun x => x.2).map Prod.fst =
      if p then some c else (checks.find? fun x => x.2).map Prod.fst := by
  by_cases h : p <;> simp [h]

theorem firstSofFailure_eq_ite (seg : SofSegment) :
    firstSofFailure seg =
      if seg.len.toNat < 17 then some .sofLength
      else if seg.prec.toNat ≠ 8 then some .sofPrecision
      else if seg.height.toNat = 0 ∨ seg.height.toNat > 2040 ∨ seg.width.toNat = 0 ∨ seg.width.toNat > 2040 then
        some .sofDimension
      else if seg.ncomp.toNat ≠ 3 then some .sofNcomp
      else if seg.c0.samp.toNat ≠ 0x21 ∧ seg.c0.samp.toNat ≠ 0x22 then some .sofSamplingFirst
      else if seg.c1.samp.toNat ≠ 0x11 ∨ seg.c2.samp.toNat ≠ 0x11 then some .sofSamplingOther
      else if seg.c1.qt ≠ seg.c2.qt then some .sofQtMismatch
      else none := by
  simp only [firstSofFailure, sofCheckList, find_check_cons]
  rfl

/-! ### What the checks leave -/

/-- What SOF0 has written where a check fails with a cause: the block counts once the dimensions have passed (R165), the
type once the first component's sampling byte has (R168). -/
def State.sofWritten (s : State) (seg : SofSegment) (c : Cause) : State :=
  let s' := if c ∈ [Cause.sofLength, .sofPrecision, .sofDimension] then s
    else s.setBlocks (blocks seg.width) (blocks seg.height)
  if c ∈ [Cause.sofSamplingOther, .sofQtMismatch] then s'.setType (typeOfSampling seg.c0.samp) else s'

/-- What a first SOF0 leaves, by the first check that fails: the parse is failed with its cause, or the frame is
committed (R169). -/
def State.afterSof (s : State) (seg : SofSegment) : Option Cause → State
  | some c => (s.sofWritten seg c).raiseFail c
  | none =>
    ((s.setBlocks (blocks seg.width) (blocks seg.height)).setType (typeOfSampling seg.c0.samp)).setSofFound.setOffset
      (s.o + seg.len.toNat)

theorem dimensions_refused_iff (h w : Half) :
    (!(dimensionOk h && dimensionOk w)) = true ↔
      h.toNat = 0 ∨ h.toNat > 2040 ∨ w.toNat = 0 ∨ w.toNat > 2040 := by
  rw [Bool.not_eq_true', ← Bool.not_eq_true, Bool.and_eq_true, dimensionOk_iff, dimensionOk_iff]
  omega

/-- The checks of SOF0 are the list of them: each test of the operation is the list's test at its place, and what it
leaves is what is written before it. -/
theorem sofChecks_eq_afterSof (s : State) (seg : SofSegment) :
    sofChecks Config.shiftFloor s seg = s.afterSof seg (firstSofFailure seg) := by
  rw [firstSofFailure_eq_ite]
  simp only [apply_ite (s.afterSof seg), sofChecks, sofComponents_shiftFloor, sofCommit]
  refine if_congr Iff.rfl rfl ?_
  refine if_congr BitVec.toNat_ne rfl ?_
  refine if_congr (dimensions_refused_iff _ _) rfl ?_
  refine if_congr BitVec.toNat_ne rfl ?_
  refine if_congr (and_congr BitVec.toNat_ne BitVec.toNat_ne) rfl ?_
  refine if_congr (or_congr BitVec.toNat_ne BitVec.toNat_ne) rfl ?_
  exact if_congr Iff.rfl rfl rfl

theorem exec_sof0_eq_afterSof {s : State} {seg : SofSegment} (hfirst : s.sofFound = false)
    (hseg : s.sofSegment s.o = some seg) : exec .sof0 s = .next (s.afterSof seg (firstSofFailure seg)) :=
  (exec_sof0_of_segment hfirst hseg).trans (congrArg _ (sofChecks_eq_afterSof s seg))

/-! ### A frame that passes -/

/-- The block count of a legal dimension fits its byte (R101, R165). -/
theorem blocks_toNat {dim : Half} (h : dim.toNat ≤ 2040) : (blocks dim).toNat = dim.toNat / 8 := by
  rw [blocks, BitVec.toNat_ofNat, Config.block]
  omega

/-- Settles O15: no check of the list fails, so the frame is committed; the block counts and the sum fit. -/
theorem sof0AcceptsValidFrame : Obligations.Sof0AcceptsValidFrame := by
  intro s len height width id0 samp0 qt0 id1 id2 qtc hsize hfirst hin hlen hlen17 hprec hheight hh1 hh2 hwidth hw1 hw2
    hncomp hid0 hsamp0 hlegal hqt0 hid1 hsamp1 hqt1 hid2 hsamp2 hqt2
  let seg : SofSegment := ⟨len, 8, height, width, 3, ⟨id0, samp0, qt0⟩, ⟨id1, 0x11, qtc⟩, ⟨id2, 0x11, qtc⟩⟩
  have hseg : s.sofSegment s.o = some seg :=
    (sofSegmentFollowsFormatF s seg).2 ⟨hlen, hprec, hheight, hwidth, hncomp, hid0, hsamp0, hqt0, hid1, hsamp1, hqt1,
      hid2, hsamp2, hqt2⟩
  have hdims : ¬ (height.toNat = 0 ∨ height.toNat > 2040 ∨ width.toNat = 0 ∨ width.toNat > 2040) := by omega
  have hsamp : ¬ (samp0.toNat ≠ 0x21 ∧ samp0.toNat ≠ 0x22) := by
    obtain rfl | rfl := hlegal <;> decide
  have hchroma : ¬ ((0x11 : Byte).toNat ≠ 0x11 ∨ (0x11 : Byte).toNat ≠ 0x11) := by decide
  have hpass : firstSofFailure seg = none := by
    rw [firstSofFailure_eq_ite]
    exact (if_neg (Nat.not_lt.2 hlen17)).trans <| (if_neg (not_not.2 rfl)).trans <| (if_neg hdims).trans <|
      (if_neg (not_not.2 rfl)).trans <| (if_neg hsamp).trans <| (if_neg hchroma).trans <| if_neg (not_not.2 rfl)
  have hfits : s.o + len.toNat < 2 ^ 32 := hsize.add_len_lt (Nat.le_of_add_right_le hin) len
  refine ⟨blocks width, blocks height, BitVec.ofNat 32 (s.o + len.toNat), blocks_toNat hw2, blocks_toNat hh2,
    toNat_ofNat_word hfits, ?_⟩
  rw [exec_sof0_eq_afterSof hfirst hseg, hpass]
  rfl

/-! ### A frame that fails -/

theorem State.sofWritten_frame (s : State) (seg : SofSegment) (c : Cause) :
    s.sofWritten seg c = { s with
      widthBlocks := (s.sofWritten seg c).widthBlocks, heightBlocks := (s.sofWritten seg c).heightBlocks
      type := (s.sofWritten seg c).type } := by
  unfold State.sofWritten
  split <;> split <;> rfl

theorem State.sofWritten_blocks (s : State) (seg : SofSegment) (c : Cause) :
    ((s.sofWritten seg c).widthBlocks, (s.sofWritten seg c).heightBlocks) =
      if c ∈ [Cause.sofLength, .sofPrecision, .sofDimension] then (s.widthBlocks, s.heightBlocks)
      else (blocks seg.width, blocks seg.height) := by
  unfold State.sofWritten
  split <;> split <;> rfl

theorem State.sofWritten_type (s : State) (seg : SofSegment) (c : Cause) :
    (s.sofWritten seg c).type =
      if c ∈ [Cause.sofSamplingOther, .sofQtMismatch] then typeOfSampling seg.c0.samp else s.type := by
  unfold State.sofWritten
  split <;> split <;> rfl

/-- A cause that is checked after the dimensions is reported for legal dimensions only. -/
theorem dimensions_le_of_firstSofFailure {seg : SofSegment} {c : Cause} (h : firstSofFailure seg = some c)
    (hc : c ∉ [Cause.sofLength, .sofPrecision, .sofDimension]) :
    seg.width.toNat ≤ 2040 ∧ seg.height.toNat ≤ 2040 := by
  rw [firstSofFailure_eq_ite] at h
  iterate 3
    split at h
    · cases h
      exact absurd (by decide) hc
  omega

/-- Settles O16, by what is written before each cause. -/
theorem sof0ReportsFirstFailedCheck : Obligations.Sof0ReportsFirstFailedCheck := by
  intro s seg c hfirst _ hseg hfail
  refine ⟨(s.sofWritten seg c).raiseFail c, ?_, ?_, fun hc => ?_, fun hc => ?_, fun hc => ?_, fun hc => ?_⟩
  · rw [exec_sof0_eq_afterSof hfirst hseg, hfail, State.afterSof]
  · exact congrArg (State.raiseFail · c) (s.sofWritten_frame seg c)
  · have hblocks := s.sofWritten_blocks seg c
    rw [if_pos hc] at hblocks
    exact Prod.mk.inj hblocks
  · have hblocks := s.sofWritten_blocks seg c
    rw [if_neg hc] at hblocks
    obtain ⟨hw, hh⟩ := Prod.mk.inj hblocks
    obtain ⟨hw2040, hh2040⟩ := dimensions_le_of_firstSofFailure hfail hc
    rw [State.raiseFail_widthBlocks, State.raiseFail_heightBlocks, hw, hh]
    exact ⟨blocks_toNat hw2040, blocks_toNat hh2040⟩
  · exact (s.sofWritten_type seg c).trans (if_pos hc)
  · exact (s.sofWritten_type seg c).trans (if_neg hc)

/-! ### The component ids -/

/-- What SOF0 leaves depends on the Container through the segment only. -/
theorem State.afterSof_withCont (s : State) (m : Memory) (seg : SofSegment) (r : Option Cause) :
    ({ s with cont := m } : State).afterSof seg r = { s.afterSof seg r with cont := m } := by
  cases r with
  | none => rfl
  | some c =>
    simp only [State.afterSof, State.sofWritten]
    split <;> split <;> rfl

/-- Settles O18: no check of the list reads an id, and no id is stored. -/
theorem componentIdsUnobservable : Obligations.ComponentIdsUnobservable := by
  intro s cont' seg id0 id1 id2 hseg hseg'
  let s' : State := { s with cont := cont' }
  by_cases hfound : s.sofFound = true
  · exact ⟨_, exec_sof0_of_found hfound, exec_sof0_of_found (s := s') hfound⟩
  · have hfirst : s.sofFound = false := Bool.eq_false_of_not_eq_true hfound
    refine ⟨_, exec_sof0_eq_afterSof hfirst hseg, ?_⟩
    rw [exec_sof0_eq_afterSof (s := s') hfirst hseg']
    exact congrArg _ (s.afterSof_withCont cont' seg (firstSofFailure seg))

end Sys2Proof.Machine
end

section
/-! PROOFS. DQT without a usable length, with the tables of its segment, and with a first table it refuses
(spec/43_dqt.md R181 to R188). -/

namespace Sys2Proof.Machine

@[simp] theorem exec_dqt (s : State) : exec .dqt s = execDqt s := rfl

/-! ### A length field that is cut or below 2 -/

/-- A cut length field ends the scan (R182). -/
theorem execDqt_of_cut {s : State} (hcut : s.size.toNat < s.o + Config.dqtMin) :
    execDqt s = .next { s with dqtFound := true, offset := s.size } :=
  (if_pos hcut).trans (congrArg _ s.setDqtFound.setOffset_toNat_size)

/-- A declared length below 2 ends the scan (R183). -/
theorem execDqt_of_short {s : State} {len : Half} (hin : s.o + Config.dqtMin ≤ s.size.toNat)
    (hlen : s.be16 s.o = some len) (hshort : len.toNat < Config.dqtMin) :
    execDqt s = .next { s with dqtFound := true, offset := s.size } :=
  calc execDqt s
      = .next (s.setDqtFound.setOffset s.size.toNat) :=
        (if_neg (Nat.not_lt.2 hin)).trans ((withBE16_of_some hlen _).trans (if_pos hshort))
    _ = .next { s with dqtFound := true, offset := s.size } := congrArg _ s.setDqtFound.setOffset_toNat_size

/-- Settles O19, by the two branches that end the scan. -/
theorem dqtWithoutLengthEndsTheScan : Obligations.DqtWithoutLengthEndsTheScan :=
  fun _ => ⟨execDqt_of_cut, fun _ => execDqt_of_short⟩

/-! ### The tables of the segment -/

/-- The end of the clamped segment is inside the buffer, so it fits the register (R15, R184). -/
theorem State.clampEnd_lt_word {s : State} (ho : s.o ≤ s.size.toNat) (len : Nat) :
    s.o + min len (s.size.toNat - s.o) < 2 ^ 32 :=
  calc s.o + min len (s.size.toNat - s.o)
      ≤ s.o + (s.size.toNat - s.o) := Nat.add_le_add_left (Nat.min_le_right _ _) _
    _ = s.size.toNat := Nat.add_sub_cancel' ho
    _ < 2 ^ 32 := s.size.isLt

theorem tableEntries_nil (fuel : Nat) : tableEntries fuel [] = [] := by cases fuel <;> rfl

/-- Every entry takes at least its header byte, so a bound of one entry per byte never cuts the list short. -/
theorem tableEntries_congr_fuel {fuel fuel' : Nat} {bs : List Byte} (h : bs.length ≤ fuel) (h' : bs.length ≤ fuel') :
    tableEntries fuel bs = tableEntries fuel' bs := by
  induction fuel generalizing fuel' bs with
  | zero =>
    obtain rfl : bs = [] := List.length_eq_zero_iff.1 (Nat.le_zero.1 h)
    rw [tableEntries_nil, tableEntries_nil]
  | succ f ih =>
    cases bs with
    | nil => rw [tableEntries_nil, tableEntries_nil]
    | cons b bs =>
      rw [List.length_cons] at h h'
      obtain ⟨g, rfl⟩ := Nat.exists_eq_add_one_of_ne_zero (Nat.ne_of_gt (Nat.zero_lt_of_lt h'))
      have hrest : (bs.drop (tableSize b)).length ≤ bs.length := (List.drop_sublist _ bs).length_le
      rw [tableEntries_cons, tableEntries_cons, ih (fuel' := g) (by omega) (by omega)]

/-- Settles O20: the clamped segment is inside the readable buffer, and DQT stores what its list reading takes. -/
theorem dqtStoresTheTablesOfItsSegment : Obligations.DqtStoresTheTablesOfItsSegment := by
  intro s len _ hr hin hlen hmin n entries
  have ho : s.o ≤ s.size.toNat := Nat.le_of_add_right_le hin
  have hbytes : (s.bytesAt (s.o + 2) (n - 2)).length = n - 2 :=
    State.bytesAt_length fun k hk => hr _ (by omega)
  have hentries : tableEntries (n - 2) (s.bytesAt (s.o + 2) (n - 2)) = entries :=
    tableEntries_congr_fuel hbytes.le (hbytes.le.trans (Nat.sub_le n 2))
  refine ⟨BitVec.ofNat 32 (s.o + n), toNat_ofNat_word (State.clampEnd_lt_word ho _), ?_⟩
  rw [exec_dqt, execDqt_of_length hin hlen hmin]
  exact dqtSegment_eq (s := s.setDqtFound) hr ho (clampLen_eq ho) hentries

/-! ### A first table that is refused -/

/-- The iteration ends at an entry with id 15, or whose table does not fit, with nothing written (R185). -/
theorem dqtTables_of_refused {s : State} {p rem : Nat} {b : Byte} (hb : s.u8 p = some b)
    (hrefused : tableId b = Config.qtIdInvalid ∨ rem < tableSize b + 1) (fuel : Nat) :
    dqtTables fuel s p rem = .next s := by
  cases fuel with
  | zero => rfl
  | succ fuel =>
    rw [dqtTables, withU8_of_some hb]
    obtain hid | hcut := hrefused
    · rw [if_pos hid, ite_self]
    · rw [if_pos hcut, ite_self, ite_self]

/-- A segment whose first table is refused is passed over: `offset` still goes to its end (R186). -/
theorem dqtSegment_of_refused {s : State} {len l : Nat} {b : Byte} (hl : clampLen s.o len s.size.toNat = l)
    (hb : s.u8 (s.o + 2) = some b) (hrefused : tableId b = Config.qtIdInvalid ∨ l - 2 < tableSize b + 1) :
    dqtSegment s len = .next (s.setOffset (s.o + l)) := by
  unfold dqtSegment
  dsimp only
  rw [hl, dqtTables_of_refused hb hrefused, andThen_next]

/-- Settles O22: the header byte is inside the buffer, and the iteration over the clamped segment ends there. -/
theorem dqtFirstTableRefused : Obligations.DqtFirstTableRefused := by
  intro s len b _ hlen hmin hb hrefused
  have hin : s.o + 2 < s.size.toNat := State.lt_size_of_u8 hb
  have ho : s.o ≤ s.size.toNat := Nat.le_of_add_right_le hin.le
  rw [← tableSize_eq] at hrefused
  have hfirst : tableId b = Config.qtIdInvalid ∨ min len.toNat (s.size.toNat - s.o) - 2 < tableSize b + 1 :=
    hrefused.imp_right fun hcut => by omega
  refine ⟨BitVec.ofNat 32 _, toNat_ofNat_word (State.clampEnd_lt_word ho _), ?_⟩
  rw [exec_dqt, execDqt_of_length hin.le hlen (Nat.le_of_succ_le hmin)]
  exact dqtSegment_of_refused (s := s.setDqtFound) (clampLen_eq ho) hb hfirst

end Sys2Proof.Machine
end

section
/-! PROOFS. DRI: what it does where its requirements are met, and that it is ignored below them
(spec/44_dri.md R200 to R203). -/

namespace Sys2Proof.Machine

@[simp] theorem exec_dri (s : State) : exec .dri s = execDri s := rfl

/-! ### The two requirements -/

/-- Fewer than 4 bytes from `o` on: ignored (R201). -/
theorem execDri_of_cut {s : State} (hcut : s.size.toNat < s.o + Config.driMin) : execDri s = .next s := if_pos hcut

/-- A declared length below 4: ignored (R202). -/
theorem execDri_of_short {s : State} {len : Half} (hin : s.o + Config.driMin ≤ s.size.toNat)
    (hlen : s.be16 s.o = some len) (hshort : len.toNat < Config.driMin) : execDri s = .next s :=
  (if_neg (Nat.not_lt.2 hin)).trans ((withBE16_of_some hlen _).trans (if_pos hshort))

/-- Settles O24, by the two branches that ignore the segment. -/
theorem driBelowRequirementsIgnored : Obligations.DriBelowRequirementsIgnored :=
  fun _ => ⟨execDri_of_cut, fun _ => execDri_of_short⟩

/-! ### The interval -/

/-- Where both requirements are met, the interval is written with its flag, then `offset` (R203). -/
theorem execDri_of_value {s : State} {len value : Half} (hin : s.o + Config.driMin ≤ s.size.toNat)
    (hlen : s.be16 s.o = some len) (hmin : Config.driMin ≤ len.toNat) (hvalue : s.be16 (s.o + 2) = some value) :
    execDri s = .next ((s.setRestart value).setOffset (s.o + len.toNat)) := by
  unfold execDri
  rw [if_neg (Nat.not_lt.2 hin), withBE16_of_some hlen, if_neg (Nat.not_lt.2 hmin), withBE16_of_some hvalue]

theorem driFlag_eq_decide_toNat (v : Half) : driFlag v = decide (v.toNat ≠ 0) :=
  Bool.eq_iff_iff.2 ((driFlag_eq_true_iff v).trans decide_eq_true_iff.symm)

/-- Settles O23: the end of the segment fits the register, also where it is past the buffer, so the write is literal. -/
theorem driReadsTheInterval : Obligations.DriReadsTheInterval := by
  intro s len value hsize hin hlen hmin hvalue
  have hfits : s.o + len.toNat < 2 ^ 32 := hsize.add_len_lt (Nat.le_of_add_right_le hin) len
  refine ⟨BitVec.ofNat 32 (s.o + len.toNat), toNat_ofNat_word hfits, ?_⟩
  rw [exec_dri, execDri_of_value hin hlen hmin hvalue, ← driFlag_eq_decide_toNat]
  rfl

end Sys2Proof.Machine
end

section
/-! PROOFS. SOS: where the scan data start, and its two faults; the finish step of a parse that passes the three tests
(spec/45_sos_and_finish.md R210 to R217). -/

namespace Sys2Proof.Machine

@[simp] theorem exec_sos (s : State) : exec .sos s = execSos s := rfl

/-! ### SOS -/

/-- A cut length field (R211). -/
theorem execSos_of_cut {s : State} (hcut : s.size.toNat < s.o + 2) : execSos s = .next (s.raiseFault .sosTruncated) :=
  if_pos hcut

/-- Where the length field can be read, the scan start decides: beyond the end it faults (R212), else it is committed
(R213). -/
theorem execSos_of_length {s : State} {len : Half} (hin : s.o + 2 ≤ s.size.toNat) (hlen : s.be16 s.o = some len) :
    execSos s =
      if s.size.toNat < s.o + len.toNat then .next (s.raiseFault .scanStartBeyondEnd)
      else .next (s.setHeaderLen (s.o + len.toNat)).setSosFound :=
  (if_neg (Nat.not_lt.2 hin)).trans (withBE16_of_some hlen _)

/-- Settles O26, by the two branches that fault. -/
theorem sosFaults : Obligations.SosFaults :=
  fun _ => ⟨execSos_of_cut, fun _ hin hlen hbeyond => (execSos_of_length hin hlen).trans (if_pos hbeyond)⟩

/-- Settles O25: a scan start that is at most `size` fits the register. -/
theorem sosMarksTheScanStart : Obligations.SosMarksTheScanStart := by
  intro s len hin hlen hstart
  have hfits : s.o + len.toNat < 2 ^ 32 := hstart.trans_lt s.size.isLt
  refine ⟨BitVec.ofNat 32 (s.o + len.toNat), toNat_ofNat_word hfits, ?_⟩
  rw [exec_sos, execSos_of_length hin hlen, if_neg (Nat.not_lt.2 hstart)]
  rfl

/-! ### The finish step that succeeds -/

theorem finishStep_of_passed {s : State} (hsof : s.sofFound = true) (hdqt : s.dqtFound = true)
    (hw : s.widthBlocks ≠ 0) (hh : s.heightBlocks ≠ 0) : finishStep s = s.succeed := by
  rw [finishStep, if_neg (by simp [hsof]), if_neg (by simp [hdqt]), if_neg (not_or.2 ⟨hw, hh⟩)]

/-- Settles O28: the loop has ended and no test fails, so the step is the success; the length of the view is at most
`size`, so it fits the register. -/
theorem finishStepPublishesTheResult : Obligations.FinishStepPublishesTheResult := by
  intro s hb hended hsof hdqt hw hh _
  have hfits : s.size.toNat - s.headerLen.toNat < 2 ^ 32 := (Nat.sub_le _ _).trans_lt s.size.isLt
  refine ⟨BitVec.ofNat 32 (s.size.toNat - s.headerLen.toNat), toNat_ofNat_word hfits, ?_⟩
  rw [step_of_loop_ended hb (State.scanning_eq_false hended), finishStep_of_passed hsof hdqt hw hh]
  rfl

/-- Settles O29: without an SOS the invariant keeps `header_len` at 0, so the published view starts at 0 and is as long
as the Container. -/
theorem successWithoutSosViewsEverything : Obligations.SuccessWithoutSosViewsEverything := by
  intro s hinv hb hsos hend hsof hdqt hw hh
  obtain ⟨hle, hzero⟩ := hinv.headerOk
  have hheader : s.headerLen = 0 := hzero hsos
  obtain ⟨n, hn, hstep⟩ := finishStepPublishesTheResult s hb (.inr hend) hsof hdqt hw hh hle
  have hall : n = s.size := BitVec.eq_of_toNat_eq (by simpa [hheader] using hn)
  exact ⟨_, hstep, rfl, hsos, hheader, hheader, hall⟩

end Sys2Proof.Machine
end

section
/-! PROOFS. The commands of the host one by one (spec/46_host_commands.md R233 to R242): what each answers where it is
accepted, and that it is refused elsewhere. -/

namespace Sys2Proof.Machine

/-! ### The commands that write -/

/-- Settles O47: the cleared results, with the four writes of RESET, are the reset state. -/
theorem resetCommandGivesResetState : Obligations.ResetCommandGivesResetState := fun _ _ => rfl

/-- The state that LOAD gives: cleared results over a Container of its bytes, in IDLE (R234). -/
def State.loadedWith (s : State) (bytes : List Byte) : State :=
  { s.clearResults with
    cont := Memory.ofBytesAt 0 bytes, size := BitVec.ofNat 32 bytes.length, state := .idle }

theorem State.loadedWith_frame (s : State) (bytes : List Byte) :
    s.loadedWith bytes = { State.reset with
      cont := (s.loadedWith bytes).cont, size := (s.loadedWith bytes).size, qfactor := s.qfactor } := rfl

/-- A length that LOAD accepts fits the register (R8, R15). -/
theorem State.loadedWith_size_toNat (s : State) {bytes : List Byte} (h : bytes.length ≤ Config.sizeMax) :
    (s.loadedWith bytes).size.toNat = bytes.length :=
  toNat_ofNat_word (h.trans_lt (by decide))

theorem State.loadedWith_u8 (s : State) {bytes : List Byte} (h : bytes.length ≤ Config.sizeMax) {a : Nat}
    (ha : a < bytes.length) : (s.loadedWith bytes).u8 a = bytes[a]? := by
  rw [State.u8_of_lt (ha.trans_eq (s.loadedWith_size_toNat h).symm)]
  exact (Memory.read_ofBytesAt 0 a bytes).trans (if_pos a.zero_le)

theorem hostLoad_of_fits {cap : Nat} {bytes : List Byte} {s : State} (hb : s.state ≠ .busy)
    (hfits : bytes.length ≤ cap) : hostLoad cap bytes s = some (s.loadedWith bytes, .nothing) := if_pos ⟨hb, hfits⟩

theorem hostLoad_of_refused {cap : Nat} {bytes : List Byte} {s : State} (h : s.state = .busy ∨ cap < bytes.length) :
    hostLoad cap bytes s = none :=
  if_neg fun ⟨hb, hfits⟩ => h.elim hb (Nat.not_lt.2 hfits)

/-- Settles O48: the Container reads as the bytes, since their number fits `size`. -/
theorem loadReplacesTheContainer : Obligations.LoadReplacesTheContainer := by
  intro cap bytes s hcap
  refine ⟨fun hb hfits => ?_, hostLoad_of_refused⟩
  have hlen : bytes.length ≤ Config.sizeMax := hfits.trans hcap
  exact ⟨s.loadedWith bytes, hostLoad_of_fits hb hfits, s.loadedWith_size_toNat hlen,
    fun _ => s.loadedWith_u8 hlen, s.loadedWith_frame bytes⟩

theorem State.started_eq (s : State) :
    s.started = { State.reset with cont := s.cont, size := s.size, qfactor := s.qfactor, state := .busy } := rfl

/-- Settles O49: `ClearResults()` leaves the reset values but for the Container, `size` and `qfactor`. -/
theorem startClearsAndGoesBusy : Obligations.StartClearsAndGoesBusy := by
  refine fun cap s => ⟨fun hb => ?_, fun hb => if_neg (not_not_intro hb)⟩
  rw [← State.started_eq]
  exact hostStart_of_not_busy hb

/-- Settles O50, by the two branches of SETQ. -/
theorem setqWritesQfactorOnly : Obligations.SetqWritesQfactorOnly :=
  fun _ _ _ => ⟨fun hb => if_pos hb, fun hb => if_neg (not_not_intro hb)⟩

/-! ### The register reads -/

theorem readResult_of_ok {s : State} (hok : s.state = .ok) (r : Reply) : readResult s r = some (s, r) := if_pos hok

theorem readResult_of_ne_ok {s : State} (hok : s.state ≠ .ok) (r : Reply) : readResult s r = none := if_neg hok

/-- The states that admit RD_OFFSET are all but IDLE and BUSY (R239). -/
theorem State.ended_iff {s : State} : s.Ended ↔ s.state ≠ .idle ∧ s.state ≠ .busy := by
  refine ⟨fun h => ⟨?_, h.ne_busy⟩, fun ⟨hidle, hbusy⟩ => State.ended_of_ne hidle hbusy⟩
  obtain h | h | h := h <;> simp [h]

theorem hostRdOffset_of_not_ended {s : State} (h : s.state = .idle ∨ s.state = .busy) : hostRdOffset s = none :=
  if_neg fun hended => h.elim (State.ended_iff.1 hended).1 (State.ended_iff.1 hended).2

/-- Settles O52: the two reads without a condition, RD_OFFSET by its own, the eight result reads by the one they share. -/
theorem registerReadsReturnRegisters : Obligations.RegisterReadsReturnRegisters := by
  intro cap s
  refine ⟨rfl, rfl, fun hended => if_pos hended, hostRdOffset_of_not_ended, fun hok => ?_, fun hok => ?_⟩
  · have hread := readResult_of_ok hok
    exact ⟨hread _, hread _, hread _, hread _, hread _, hread _, hread _, hread _⟩
  · have hread := readResult_of_ne_ok hok
    simp only [List.forall_mem_cons]
    exact ⟨hread _, hread _, hread _, hread _, hread _, hread _, hread _, hread _, nofun⟩

/-! ### The memory reads -/

theorem hostRdQt_of_written {i : Nat} {v : Byte} {s : State} (hok : s.state = .ok) (hi : i ≤ 1919)
    (hv : s.qt.read i = some v) : hostRdQt i s = some (s, .bits8 v) := by
  have hi' : i < Config.qtCap := Nat.lt_succ_of_le hi
  rw [hostRdQt, if_pos ⟨hok, hi'⟩, hv, Option.map_some]

theorem isSome_ite {α : Type} {p : Prop} [Decidable p] {a : Option α} :
    (if p then a else none).isSome ↔ p ∧ a.isSome := by
  by_cases hp : p <;> simp [hp]

theorem hostRdQt_isSome_iff {i : Nat} {s : State} :
    (hostRdQt i s).isSome ↔ s.state = .ok ∧ i ≤ 1919 ∧ (s.qt.read i).isSome := by
  have hcap : i < Config.qtCap ↔ i ≤ 1919 := Nat.lt_succ_iff
  rw [hostRdQt, isSome_ite, Option.isSome_map, hcap, and_assoc]

theorem hostRdQt_of_refused {i : Nat} {s : State} (h : s.state ≠ .ok ∨ 1919 < i ∨ s.qt.read i = none) :
    hostRdQt i s = none := by
  rw [← Option.not_isSome_iff_eq_none, hostRdQt_isSome_iff]
  rintro ⟨hok, hi, hv⟩
  obtain hne | hlt | hnone := h
  · exact hne hok
  · exact Nat.not_lt.2 hi hlt
  · rw [hnone] at hv
    cases hv

/-- Settles O53, by the written byte and by the three reasons to refuse. -/
theorem tableReadReturnsWrittenByte : Obligations.TableReadReturnsWrittenByte :=
  fun _ _ _ => ⟨fun _ => hostRdQt_of_written, hostRdQt_of_refused⟩

/-- After OK every index of the view names a byte of the Container (R39, R45). -/
theorem State.Inv.exists_viewByte {s : State} (h : s.Inv) (hok : s.state = .ok) {k : Nat} (hk : k < s.scanLen.toNat) :
    s.scanOff.toNat + k < s.size.toNat ∧ ∃ v, s.u8 (s.scanOff.toNat + k) = some v := by
  have hview := h.viewOk
  rw [State.ViewOk, if_pos hok] at hview
  obtain ⟨-, hsum⟩ := hview
  have hlt : s.scanOff.toNat + k < s.size.toNat := by omega
  exact ⟨hlt, h.contFull.readable.u8 hlt⟩

theorem hostRdScan_of_inView {k : Nat} {v : Byte} {s : State} (hok : s.state = .ok) (hk : k < s.scanLen.toNat)
    (hv : s.u8 (s.scanOff.toNat + k) = some v) : hostRdScan k s = some (s, .bits8 v) := by
  rw [hostRdScan, if_pos ⟨hok, hk⟩, hv, Option.map_some]

theorem hostRdScan_of_refused {k : Nat} {s : State} (h : s.state ≠ .ok ∨ s.scanLen.toNat ≤ k) :
    hostRdScan k s = none :=
  if_neg fun ⟨hok, hk⟩ => h.elim (absurd hok) (Nat.not_le.2 hk)

/-- Settles O54: the invariant puts the whole view inside the loaded Container. -/
theorem scanReadReturnsViewByte : Obligations.ScanReadReturnsViewByte := by
  refine fun cap k s h => ⟨fun hok hk => ?_, hostRdScan_of_refused⟩
  obtain ⟨hlt, v, hv⟩ := h.exists_viewByte hok hk
  exact ⟨hlt, v, (State.u8_of_lt hlt).symm.trans hv, hostRdScan_of_inView hok hk hv⟩

end Sys2Proof.Machine
end

section
/-! PROOFS. All commands of the host together: the acceptance table (spec/46_host_commands.md R231, R245) and the
invariant. -/

namespace Sys2Proof.Machine

/-! ### Acceptance -/

/-- The acceptance table of R245: the states that admit a command, and the conditions on its argument. -/
def HostCmd.AcceptedIn (cap : Nat) (s : State) : HostCmd → Prop
  | .reset | .rdStatus | .rdSize | .rdQfactor => True
  | .load bytes => s.state ≠ .busy ∧ bytes.length ≤ cap
  | .start | .setq _ => s.state ≠ .busy
  | .rdOffset => s.state ≠ .idle ∧ s.state ≠ .busy
  | .rdQt i => s.state = .ok ∧ i ≤ 1919 ∧ (s.qt.read i).isSome
  | .rdScan k => s.state = .ok ∧ k < s.scanLen.toNat
  | _ => s.state = .ok

theorem State.Inv.hostRdScan_isSome_iff {s : State} (h : s.Inv) {k : Nat} :
    (hostRdScan k s).isSome ↔ s.state = .ok ∧ k < s.scanLen.toNat := by
  rw [hostRdScan, isSome_ite, Option.isSome_map]
  refine and_iff_left_of_imp fun ⟨hok, hk⟩ => ?_
  obtain ⟨-, hv⟩ := h.exists_viewByte hok hk
  exact Option.isSome_iff_exists.2 hv

/-- A command is accepted exactly where the table admits it. -/
theorem State.Inv.hostCommand_isSome_iff {s : State} (h : s.Inv) (cap : Nat) (c : HostCmd) :
    (hostCommand cap c s).isSome ↔ c.AcceptedIn cap s := by
  cases c with
  | reset | rdStatus | rdSize | rdQfactor => exact iff_of_true rfl trivial
  | rdOffset => exact Option.isSome_ite.trans State.ended_iff
  | rdQt i => exact hostRdQt_isSome_iff
  | rdScan k => exact h.hostRdScan_isSome_iff
  | _ => exact Option.isSome_ite

/-- A refused command changes nothing and returns nothing (R231). -/
theorem hostApply_hostReply_of_refused {cap : Nat} {c : HostCmd} {s : State} (h : hostCommand cap c s = none) :
    hostApply cap c s = s ∧ hostReply cap c s = none := by
  simp only [hostApply, hostReply, h, Option.map_none, and_self]

theorem hostApply_hostReply_of_accepted {cap : Nat} {c : HostCmd} {s t : State} {r : Reply}
    (h : hostCommand cap c s = some (t, r)) : hostApply cap c s = t ∧ hostReply cap c s = some r := by
  simp only [hostApply, hostReply, h, Option.map_some, and_self]

/-- Settles O55: the table decides acceptance, and what an accepted command can do decides `state`. -/
theorem acceptanceByState : Obligations.AcceptanceByState := by
  refine fun cap c s h => ⟨(h.hostCommand_isSome_iff cap c).trans ?_, hostApply_hostReply_of_refused, fun t r hc => ?_⟩
  · cases c <;> exact Iff.rfl
  · obtain ⟨happly, hreply⟩ := hostApply_hostReply_of_accepted hc
    refine ⟨happly, hreply, ?_⟩
    obtain ⟨rfl, rfl, -⟩ | ⟨bytes, rfl, -, -, -, rfl⟩ | ⟨rfl, -, -, rfl⟩ | ⟨v, rfl, -, -, rfl⟩ |
      ⟨hreset, hload, hstart, hsetq, rfl⟩ := hostCommand_eq_some hc
    · rfl
    · rfl
    · rfl
    · rfl
    · cases c with
      | reset => exact absurd rfl hreset
      | load bytes => exact absurd rfl (hload bytes)
      | start => exact absurd rfl hstart
      | setq v => exact absurd rfl (hsetq v)
      | _ => rfl

/-- Settles O36: the writes of RESET, LOAD and START are cleared results over a loaded Container, SETQ writes what the
invariant does not read, and a read or a refused command leaves the state. -/
theorem commandsKeepInvariant : Obligations.CommandsKeepInvariant := fun _ c _ hcap => hostApply_inv hcap c

/-! ### Parsing again -/

/-- A whole parse ends in OK, FAIL or FAULT (R125). -/
theorem parseAll_ended {s t : State} (h : s.Inv) (hb : s.state ≠ .busy) (hparse : parseAll s = .next t) : t.Ended := by
  obtain ⟨s0, u, hstart, -, hrun, hended⟩ := everyParseEnds 0 s h hb
  cases (hostStart_of_not_busy hb).symm.trans hstart
  rw [core_run] at hrun
  rw [parseAll_of_not_busy hb] at hparse
  obtain rfl : u = t := Host.Outcome.next.inj (hrun.symm.trans hparse)
  exact hended

/-- Settles O42: a parse is a function of the Container, its size and `qfactor`, none of which it writes, so it gives the
same state again. -/
theorem reparseEndsInTheSameState : Obligations.ReparseEndsInTheSameState := by
  intro s t h hb hparse
  have hbt : t.state ≠ .busy := (parseAll_ended h hb hparse).ne_busy
  have hrun := hparse
  rw [parseAll_of_not_busy hb] at hrun
  obtain ⟨hcont, hsize, -⟩ := parserRun_hostState hrun
  obtain ⟨-, hagain⟩ := parseIsFunctionOfContainer s t t hb hbt hcont.symm hsize.symm hparse
  exact ⟨hbt, hagain⟩

end Sys2Proof.Machine
end

section
/-! PROOFS. What ends a parse early (spec/60_exceptions.md): what the two raises write (R263, R264, R269), and the marker
that `offset` names after a raise (R270). -/

namespace Sys2Proof.Machine

/-- Settles O30: both raises are the end of a parse, which writes the two registers. -/
theorem raiseWritesStateAndCause : Obligations.RaiseWritesStateAndCause := fun _ _ => ⟨rfl, rfl⟩

/-! ### An operation that raises leaves `offset` -/

theorem State.sofWritten_offset (s : State) (seg : SofSegment) (c : Cause) : (s.sofWritten seg c).offset = s.offset := by
  rw [s.sofWritten_frame seg c]

/-- The checks of SOF0 raise with `offset` at the operand, or commit without an end of the parse (R169, R170). -/
theorem State.afterSof_state_or_offset (s : State) (seg : SofSegment) (r : Option Cause) :
    (s.afterSof seg r).state = s.state ∨ (s.afterSof seg r).offset = s.offset := by
  cases r with
  | none => exact .inl rfl
  | some c => exact .inr (s.sofWritten_offset seg c)

theorem execSof0_state_or_offset {s t : State} (h : execSof0 s = .next t) :
    t.state = s.state ∨ t.offset = s.offset := by
  obtain rfl | rfl | ⟨seg, -, rfl⟩ := execSof0_eq_next h
  · exact .inr rfl
  · exact .inr rfl
  · rw [sofChecks_eq_afterSof]
    exact s.afterSof_state_or_offset seg _

/-- No operation both ends the parse and moves `offset`: SOF0 by its checks, SOS never moves it, and the others never
write `state`. -/
theorem exec_state_or_offset {i : Instr} {s t : State} (h : exec i s = .next t) :
    t.state = s.state ∨ t.offset = s.offset := by
  cases i with
  | sof0 => exact execSof0_state_or_offset h
  | sos => rw [execSos_frame h]; exact .inr rfl
  | dht => rw [skip_frame h]; exact .inl rfl
  | appn n => rw [skip_frame h]; exact .inl rfl
  | com => rw [skip_frame h]; exact .inl rfl
  | dqt => rw [execDqt_frame h]; exact .inl rfl
  | dri => rw [execDri_frame h]; exact .inl rfl
  | soi => cases h; exact .inl rfl
  | eoi => cases h; exact .inl rfl
  | other code => cases h; exact .inl rfl

/-! ### The offending marker -/

/-- A marker step that ends the parse stands two above the marker-start byte that its search found: an exhausted search
does not end the parse, and an operation that ends it has not moved on. -/
theorem markerStep_offender {s t : State} (hb : s.state = .busy) (hstep : markerStep s = .next t)
    (hend : t.state ≠ .busy) : ∃ i, t.o = i + 2 ∧ s.o ≤ i ∧ s.u8 i = some Config.markerStart := by
  obtain ⟨i, code, hfetch, hexec⟩ | ⟨-, rfl⟩ := markerStep_eq_next hstep
  · obtain ⟨hfrom, -, hin, hstart, -, -⟩ := searchFrom_eq_marker hfetch
    have hoffset : t.offset = (s.setOffset (i + 2)).offset :=
      (exec_state_or_offset hexec).resolve_left fun hstate => hend (hstate.trans hb)
    have hsize := s.size.isLt
    exact ⟨i, (State.o_congr hoffset).trans (s.setOffset_o (by omega)), hfrom, hstart⟩
  · exact absurd hb hend

/-- Settles O32: a marker step by the offending marker, the finish step by its frame. -/
theorem offsetNamesTheOffendingMarker : Obligations.OffsetNamesTheOffendingMarker := by
  intro s t hb hstep hend
  refine ⟨fun hscan => ?_, fun hended => ?_⟩
  · rw [step_of_scanning hb (s.scanning_iff.2 hscan)] at hstep
    obtain ⟨i, ho, hfrom, hstart⟩ := markerStep_offender hb hstep hend
    rw [ho]
    exact ⟨Nat.le_add_left 2 i, hfrom, hstart⟩
  · rw [step_of_loop_ended hb (State.scanning_eq_false hended)] at hstep
    cases hstep
    rw [finishStep_frame s]

end Sys2Proof.Machine
end
